-- ==== Sys2Proof/Word.lean ====
section
/-! DEFINITION. The value types of AVCE: register words, bytes, the 16-byte blocks and 4-byte words of the
AES engine (00_scope.md R8, R10, R11; 20_memory.md R50). -/

namespace Sys2Proof

/-- A word is an unsigned 32-bit number, bit 0 the least significant (R10). -/
abbrev Word := BitVec 32

/-- A byte is an unsigned 8-bit number (R11). -/
abbrev Byte := BitVec 8

/-- A register number, an 11-bit index and not a byte address (R50). -/
abbrev RegNo := BitVec 11

/-- An AES block, key or state as the bytes `b[0..15]` in block order (R11, R220). -/
abbrev Block := Vector Byte 16

/-- A word of the AES key schedule, `[a0, a1, a2, a3]` (R11). -/
abbrev AesWord := Vector Byte 4

end Sys2Proof
end

