-- ==== Sys2Proof/Syntax.lean ====
section
/-! DEFINITION. The instruction set of AVCE: its eight commands (30_encoding.md R85, R95), and the fields of a
command word (R80).  A command has no operand field: the text and the key are always those of the input
buffers (R80, R90). -/

namespace Sys2Proof

/-- The eight commands of R85, one constructor per row of the opcode table. -/
inductive Instr where
  /-- DES.ENC, 43_des_commands.md R171. -/
  | desEnc
  /-- DES.DEC, R172. -/
  | desDec
  /-- DES.ENC.T, R173. -/
  | desEncT
  /-- DES.DEC.T, R174. -/
  | desDecT
  /-- AES.ENC, 47_aes_commands.md R261. -/
  | aesEnc
  /-- AES.DEC, R262. -/
  | aesDec
  /-- AES.ENC.T, R263. -/
  | aesEncT
  /-- AES.DEC.T, R264. -/
  | aesDecT
  deriving DecidableEq, Repr

/-- The four fields of format C (R80). -/
structure CommandFields where
  /-- bits [3:0]: 1 selects DES, 2 selects AES-128 (R81). -/
  alg : BitVec 4
  /-- bit [4]: 0 encrypts, 1 decrypts (R82). -/
  dec : Bool
  /-- bit [5]: 0 direct, 1 traced (R83). -/
  trc : Bool
  /-- bits [31:6]: reserved, must be 0 (R84). -/
  rsv : BitVec 26
  deriving DecidableEq, Repr

/-- The ALG, DEC and TRC columns of the opcode map (R85). -/
def Instr.fields : Instr → CommandFields
  | .desEnc => ⟨1, false, false, 0⟩
  | .desDec => ⟨1, true, false, 0⟩
  | .desEncT => ⟨1, false, true, 0⟩
  | .desDecT => ⟨1, true, true, 0⟩
  | .aesEnc => ⟨2, false, false, 0⟩
  | .aesDec => ⟨2, true, false, 0⟩
  | .aesEncT => ⟨2, false, true, 0⟩
  | .aesDecT => ⟨2, true, true, 0⟩

end Sys2Proof
end

