-- ==== Sys2Proof/WellFormed.lean ====
section
/-! DEFINITION. The two conditions on the fields of a command word (30_encoding.md R81, R84).  A term of `Instr`
has no operand, so every `Instr` is well formed; the conditions bite on the fields of a raw word. -/

namespace Sys2Proof

/-- "Values 0 and 3 to 15 name no algorithm of this hardware" (R81). -/
def CommandFields.algRecognised (f : CommandFields) : Bool := f.alg == 1 || f.alg == 2

/-- "RSV must be written as 0" (R84). -/
def CommandFields.rsvZero (f : CommandFields) : Bool := f.rsv == 0

/-- The fields of a legal command word (R85, R87). -/
def CommandFields.wf (f : CommandFields) : Bool := f.algRecognised && f.rsvZero

/-- The well-formedness of a command is that of the fields it is written with. -/
def Instr.wf (i : Instr) : Bool := i.fields.wf

end Sys2Proof
end

