-- ==== Sys2Proof/Decode.lean ====
section
/-! DEFINITION. The decoder of command words (30_encoding.md R80, R86, R87), total on 32-bit words, and the
encoder beside it (R80, R85). -/

namespace Sys2Proof

/-- Why a word is not a command (R86): the two causes of UnsupportedOperation, in the order they are tested. -/
inductive DecodeError where
  /-- `v[3:0]` is neither 1 nor 2: sub-code 1 of R302. -/
  | unknownAlgorithm
  /-- ALG is recognised and `v[31:6]` is not 0: sub-code 2 of R302. -/
  | reservedBits
  deriving DecidableEq, Repr

/-- What the decoder answers: a command, or the cause of its rejection. -/
inductive Decoded where
  | command (i : Instr)
  | rejected (e : DecodeError)
  deriving DecidableEq, Repr

/-- The fields of a word, cut at the bit positions of R80. -/
def fieldsOf (v : Word) : CommandFields where
  alg := v.extractLsb' 0 4
  dec := v.getLsbD 4
  trc := v.getLsbD 5
  rsv := v.extractLsb' 6 26

/-- The command that a recognised ALG, a DEC and a TRC name (R85). -/
def commandOf (aes dec trc : Bool) : Instr :=
  match aes, dec, trc with
  | false, false, false => .desEnc
  | false, true, false => .desDec
  | false, false, true => .desEncT
  | false, true, true => .desDecT
  | true, false, false => .aesEnc
  | true, true, false => .aesDec
  | true, false, true => .aesEncT
  | true, true, true => .aesDecT

/-- R86: the ALG test comes first, then the RSV test. -/
def decode (v : Word) : Decoded :=
  if (fieldsOf v).algRecognised then
    if (fieldsOf v).rsvZero then
      .command (commandOf ((fieldsOf v).alg == 2) (fieldsOf v).dec (fieldsOf v).trc)
    else .rejected .reservedBits
  else .rejected .unknownAlgorithm

/-- The word whose fields are `f`, laid out as R80 says. -/
def wordOf (f : CommandFields) : Word :=
  f.rsv ++ BitVec.ofBool f.trc ++ BitVec.ofBool f.dec ++ f.alg

/-- The command word of a command (R85). -/
def encode (i : Instr) : Word := wordOf i.fields

/-- The instruction the decoder reads from a table row's bits; every bit above `nbits` is 0.  A command is
exactly one 32-bit word, so bits beyond 32 belong to no command. -/
def decodeTableWord (nbits w : Nat) : Option Instr :=
  let v := w % 2 ^ nbits
  if v < 2 ^ 32 then
    match decode (BitVec.ofNat 32 v) with
    | .command i => some i
    | .rejected _ => none
  else none

end Sys2Proof
end

