-- ==== Sys2Proof/Config.lean ====
section
/-! DEFINITION. The sizes that the types of the state rest on (00_scope.md R8).

R8 leaves one parameter OPEN, `T_STEP`, the time of one engine step: "finite, otherwise unspecified; no rule
depends on it".  The model does not represent time, so it has no such constant (assumption log 3); no value
of AVCE is left open, so there is no free value here either. -/

namespace Sys2Proof.Config

/-- `BUF_CAP`, the number of character registers of TEXT_BUF, KEY_BUF and OUT_BUF (R8). -/
abbrev bufCap : Nat := 32

/-- `TRACE_CAP`, the number of words of the trace memory (R8). -/
abbrev traceCap : Nat := 1024

end Sys2Proof.Config
end

