-- ==== Sys2Proof/Machine/State.lean ====
section
/-! DEFINITION. The state of AVCE as plain data (10_state.md R20 to R39), the accesses of its host (30_encoding.md
R96), and the reset state (70_reset_and_hazards.md R331).

`Avce` holds exactly the registers of R20.  `State` puts beside it the two fields of the MODEL that stand for
the host agent of R14: the accesses still to come, in the order in which they and the engine's steps fall, and
the word the last read returned (assumption log 1 and 2). -/

namespace Sys2Proof.Machine

/-- The sequencer SEQ = (PHASE, IDX), AVCE's program counter (R30).  One constructor per PHASE; the argument
is IDX, counted from 0: `desKs r` and `desRnd r` are (DES_KS, r+1) and (DES_RND, r+1), `aesRnd r` is
(AES_RND, r+1), `aesKx i` is (AES_KX, i).  The pairs R30 says are never taken have no term
(assumption log 4). -/
inductive Seq where
  | idle
  | desPc1
  | desKs (r : Fin 16)
  | desIp
  | desRnd (r : Fin 16)
  | desFp
  | aesKx (i : Fin 44)
  | aesArk0
  | aesRnd (r : Fin 10)
  | aesOut
  deriving DecidableEq, Repr

/-- PHASE as the 4-bit value of R30's table. -/
def Seq.phase : Seq → BitVec 4
  | .idle => 0
  | .desPc1 => 1
  | .desKs _ => 2
  | .desIp => 3
  | .desRnd _ => 4
  | .desFp => 5
  | .aesKx _ => 6
  | .aesArk0 => 7
  | .aesRnd _ => 8
  | .aesOut => 9

/-- IDX as the 6-bit value of R30's table. -/
def Seq.idx : Seq → BitVec 6
  | .desKs r => BitVec.ofNat 6 (r.val + 1)
  | .desRnd r => BitVec.ofNat 6 (r.val + 1)
  | .aesKx i => BitVec.ofNat 6 i.val
  | .aesRnd r => BitVec.ofNat 6 (r.val + 1)
  | .idle | .desPc1 | .desIp | .desFp | .aesArk0 | .aesOut => 0

/-- CMDR, the decoded fields of the command in progress (R31). -/
structure Cmdr where
  /-- 4 bits: 1 DES, 2 AES-128 -/
  alg : BitVec 4
  /-- 1 bit: 1 decrypt -/
  dec : Bool
  /-- 1 bit: 1 traced -/
  trc : Bool
  deriving DecidableEq, Repr

/-- ERRINFO's three fields; bits [31:16] read 0 (R24). -/
structure ErrInfo where
  /-- bits [3:0] -/
  code : BitVec 4
  /-- bits [7:4] -/
  sub : BitVec 4
  /-- bits [15:8] -/
  index : BitVec 8
  deriving DecidableEq, Repr

/-- The trace memory TRACE[0..1023] (R29) as (index, word) pairs, in the one canonical form that `Memory.wf`
states: indices strictly rising and below 1024, no listed word 0.  An unlisted index reads as 0, the reset value
of R38. -/
abbrev Memory := List (Nat × Word)

/-- The complete state of AVCE, as R20 lists it.  ID is a constant and no field (R21). -/
structure Avce where
  /-- CMD, 32 bits (R22) -/
  cmd : Word
  /-- STATUS.BUSY (R23) -/
  busy : Bool
  /-- STATUS.DONE (R23) -/
  done : Bool
  /-- STATUS.OK (R23) -/
  ok : Bool
  /-- ERRINFO (R24) -/
  errinfo : ErrInfo
  /-- TEXT_LEN, 32 bits (R25) -/
  textLen : Word
  /-- KEY_LEN, 32 bits (R25) -/
  keyLen : Word
  /-- TEXT_BUF[0..31], 32 bits each (R26) -/
  textBuf : Vector Word Config.bufCap
  /-- KEY_BUF[0..31], 32 bits each (R26) -/
  keyBuf : Vector Word Config.bufCap
  /-- OUT_LEN, 32 bits (R27) -/
  outLen : Word
  /-- OUT_BUF[0..31], 32 bits each (R27) -/
  outBuf : Vector Word Config.bufCap
  /-- DOUT[0..3], 32 bits each (R28) -/
  dout : Vector Word 4
  /-- TRACE_LEN, 32 bits (R29) -/
  traceLen : Word
  /-- TRACE[0..1023], 32 bits each (R29) -/
  trace : Memory
  /-- SEQ (R30) -/
  seq : Seq
  /-- CMDR (R31) -/
  cmdr : Cmdr
  /-- DKEY, 64 bits (R31) -/
  dkey : BitVec 64
  /-- DTEXT, 64 bits (R31) -/
  dtext : BitVec 64
  /-- AKEY, 16 bytes (R31) -/
  akey : Block
  /-- ATEXT, 16 bytes (R31) -/
  atext : Block
  /-- C, 28 bits (R32) -/
  c : BitVec 28
  /-- D, 28 bits (R32) -/
  d : BitVec 28
  /-- L, 32 bits (R32) -/
  l : BitVec 32
  /-- R, 32 bits (R32) -/
  r : BitVec 32
  /-- K[1..16], 48 bits each; K[i] is element i-1 (R33) -/
  k : Vector (BitVec 48) 16
  /-- S, 16 bytes in block order (R34) -/
  st : Block
  /-- W[0..43], 4 bytes each (R35) -/
  w : Vector AesWord 44
  deriving DecidableEq, Repr

/-- The next thing that happens to AVCE: one statement of a host program (R96), or one engine step (the `STEP`
of 95_test_vectors.md P5). -/
inductive Event where
  /-- `RD n`: `MemRead(n, 4)` -/
  | rd (n : RegNo)
  /-- `WR n, v`: `MemWrite(n, 4, v)` -/
  | wr (n : RegNo) (v : Word)
  /-- `POLL`: `RD 0x002` until bit 0 reads 0 -/
  | poll
  /-- `RESET`, 70_reset_and_hazards.md R330 -/
  | reset
  /-- one engine step (R14) -/
  | engine
  deriving DecidableEq, Repr

/-- AVCE and, beside it, the model's view of its host. -/
structure State where
  /-- every register of the hardware -/
  avce : Avce
  /-- THE MODEL'S OWN FIELD: the interleaving of host accesses and engine steps still to come, next one first
  (R14, R63) -/
  schedule : List Event
  /-- THE MODEL'S OWN FIELD: the word the host's last read returned (R52) -/
  rdata : Word
  deriving DecidableEq, Repr

/-- The reasons for which the machine would stop with a fault.  There are none: "Nothing in AVCE is `stuck`"
(93_implementation_defined.md part 1), an access to an unmapped register raises nothing (R53), and every
error of R300 is recorded in ERRINFO by a NEXT state (R306). -/
inductive Fault where
  deriving DecidableEq, Repr

/-- The reasons for which the model would refuse an instruction. -/
inductive Refusal where
  /-- An instruction without a meaning.  Raised by nobody: all eight commands have theirs.  Safe: it would stop
  the model where the hardware goes on. -/
  | notModelled (mnemonic : String)
  deriving DecidableEq, Repr

/-- Every register at 0 and SEQ at (IDLE, 0) (R38, R331). -/
def Avce.reset : Avce where
  cmd := 0
  busy := false
  done := false
  ok := false
  errinfo := ⟨0, 0, 0⟩
  textLen := 0
  keyLen := 0
  textBuf := Vector.replicate 32 0
  keyBuf := Vector.replicate 32 0
  outLen := 0
  outBuf := Vector.replicate 32 0
  dout := Vector.replicate 4 0
  traceLen := 0
  trace := []
  seq := .idle
  cmdr := ⟨0, false, false⟩
  dkey := 0
  dtext := 0
  akey := Vector.replicate 16 0
  atext := Vector.replicate 16 0
  c := 0
  d := 0
  l := 0
  r := 0
  k := Vector.replicate 16 0
  st := Vector.replicate 16 0
  w := Vector.replicate 44 (Vector.replicate 4 0)

/-- The machine right after reset, with no host access yet to come (R331; the two fields of the model:
assumption log 2). -/
def State.reset : State where
  avce := Avce.reset
  schedule := []
  rdata := 0

end Sys2Proof.Machine
end

