-- ==== Sys2Proof/Machine/Flags.lean ====
section
/-! DEFINITION. The flags of AVCE: the STATUS and ERRINFO words (10_state.md R23, R24) and the presence flags that a
trace records, which are functions of SEQ.IDX alone (R36). -/

namespace Sys2Proof.Machine

/-- STATUS: BUSY in bit 0, DONE in bit 1, OK in bit 2, zeros above (R23). -/
def statusWord (a : Avce) : Word :=
  0#29 ++ BitVec.ofBool a.ok ++ BitVec.ofBool a.done ++ BitVec.ofBool a.busy

/-- ERRINFO: CODE in [3:0], SUB in [7:4], INDEX in [15:8], zeros above (R24). -/
def errWord (e : ErrInfo) : Word := 0#16 ++ e.index ++ e.sub ++ e.code

/-- The classes of R300, numbered in AV's order.  AVCE raises only the first and the last (R303). -/
inductive ErrClass where
  | formatError
  | domainError
  | algebraicPrecondition
  | structuralPrecondition
  | unsupportedOperation
  deriving DecidableEq, Repr

/-- CODE of a class (R300). -/
def ErrClass.code : ErrClass → BitVec 4
  | .formatError => 1
  | .domainError => 2
  | .algebraicPrecondition => 3
  | .structuralPrecondition => 4
  | .unsupportedOperation => 5

/-- A flag as a trace word. -/
def flagWord (b : Bool) : Word := if b then 1 else 0

/-- `swapped` of DES round `n`: 1 for `n = 1..15`, 0 for `n = 16` (R157, R158, R179). -/
def swappedFlag (n : Nat) : Bool := decide (n < 16)

/-- `special` of AES key word `i`: `i` in {4, 8, ..., 40} (R206, R268). -/
def specialFlag (i : Nat) : Bool := decide (4 ≤ i) && i % 4 == 0

/-- HAS_SUB of AES round `n`: 0 for the initial step, 1 for rounds 1 to 10 (R269, R270). -/
def hasSubFlag (n : Nat) : Bool := decide (1 ≤ n)

/-- HAS_MIX of AES round `n`: 1 for rounds 1 to 9 (R269, R270). -/
def hasMixFlag (n : Nat) : Bool := decide (1 ≤ n) && decide (n < 10)

end Sys2Proof.Machine
end

