-- ==== Sys2Proof/Machine/Memory.lean ====
section
/-! DEFINITION. Reading and writing the trace memory, word by word (10_state.md R29, R38). -/

namespace Sys2Proof.Machine

/-- The one canonical form: indices strictly rising and below 1024, no listed word equal to what an unlisted
index reads as. -/
abbrev Memory.wf (m : Memory) : Prop :=
  m.Pairwise (fun x y => x.1 < y.1) ∧ ∀ x ∈ m, x.2 ≠ 0 ∧ x.1 < Config.traceCap

/-- The stored word `TRACE[i]`; an unlisted index reads as 0 (R38). -/
def Memory.readWord : Memory → Nat → Word
  | [], _ => 0
  | (j, x) :: rest, i => if j = i then x else Memory.readWord rest i

/-- Lists `x` at index `i`, before the first greater index. -/
def Memory.insertWord (i : Nat) (x : Word) : Memory → Memory
  | [] => [(i, x)]
  | (j, y) :: rest => if i < j then (i, x) :: (j, y) :: rest else (j, y) :: Memory.insertWord i x rest

/-- `TRACE[i] <- x`.  There is no word at or beyond index 1024 (R29), so nothing is stored there. -/
def Memory.writeWord (m : Memory) (i : Nat) (x : Word) : Memory :=
  if i < Config.traceCap then
    let cleared := m.filter (fun e => e.1 != i)
    if x = 0 then cleared else Memory.insertWord i x cleared
  else m

/-- `TRACE[off], TRACE[off+1], ... <- xs`. -/
def Memory.writeWords (m : Memory) (off : Nat) : List Word → Memory
  | [] => m
  | x :: xs => Memory.writeWords (m.writeWord off x) (off + 1) xs

end Sys2Proof.Machine
end

