-- ==== Sys2Proof/Machine/Bits.lean ====
section
/-! DEFINITION. The bit-string and byte primitives both engines use (00_scope.md R9 to R12; 40_primitives.md
R104, R105, R107, R109).  A bit string of length `n` is a `BitVec n` whose position 1 is the most significant
bit, so `val` is `BitVec.toNat`, `‖` is `++` and `^` is `^^^`. -/

namespace Sys2Proof.Machine

/-- `B[i..i+len-1]`, positions counted from 1 on the left (R9). -/
def slice {n : Nat} (B : BitVec n) (i len : Nat) : BitVec len := B.extractLsb' (n + 1 - i - len) len

/-- `perm(T, B)`, of length `m`, the number of entries of `T`: `perm(T, B)[i] = B[T[i]]` (R12). -/
def perm {n : Nat} (m : Nat) (T : List Nat) (B : BitVec n) : BitVec m :=
  (BitVec.ofBoolListBE (T.map fun t => B.getMsbD (t - 1))).setWidth m

/-- `rotl(B, k) = B[k+1..n] ‖ B[1..k]` (R109). -/
def rotl {n : Nat} (B : BitVec n) (k : Nat) : BitVec n := B.rotateLeft k

/-- The HI word of a bit string of 33 to 64 bits: all but its rightmost 32 bits, right-justified (R10). -/
def hiWord {n : Nat} (B : BitVec n) : Word := (B >>> 32).setWidth 32

/-- The LO word: the rightmost 32 bits; for a string of at most 32 bits, the whole string zero-extended (R10). -/
def loWord {n : Nat} (B : BitVec n) : Word := B.setWidth 32

/-- `bytes(B)`: `b[i] = val(B[8i+1..8i+8])` (R104). -/
def bytesOf (B : BitVec 128) : Block := Vector.ofFn fun i => slice B (8 * i.val + 1) 8

/-- `block(b) = bits_8(b[0]) ‖ ... ‖ bits_8(b[15])` (R104). -/
def blockBits (b : Block) : BitVec 128 :=
  b[0] ++ b[1] ++ b[2] ++ b[3] ++ b[4] ++ b[5] ++ b[6] ++ b[7] ++
    b[8] ++ b[9] ++ b[10] ++ b[11] ++ b[12] ++ b[13] ++ b[14] ++ b[15]

/-- A word `[a0, a1, a2, a3]` in a register: `a0·2^24 + a1·2^16 + a2·2^8 + a3` (R11). -/
def wordBits (a : AesWord) : Word := a[0] ++ a[1] ++ a[2] ++ a[3]

/-- The word `c` of a block, bytes `4c..4c+3` (20_memory.md R62). -/
def blockWord (b : Block) (c : Fin 4) : Word :=
  wordBits #v[b[4 * c.val], b[4 * c.val + 1], b[4 * c.val + 2], b[4 * c.val + 3]]

/-- The four words of a block, word 0 first (R61, R62). -/
def blockWords (b : Block) : List Word := [blockWord b 0, blockWord b 1, blockWord b 2, blockWord b 3]

/-- One turn of the loop of R107 on the accumulator `p`, the multiplicand `a` and the multiplier `b`. -/
def gmulTurn (p a b : Byte) : Byte × Byte × Byte :=
  (if b.getLsbD 0 then p ^^^ a else p, if a.getLsbD 7 then (a <<< 1) ^^^ 0x1B else a <<< 1, b >>> 1)

/-- `n` turns of the loop of R107, answering the accumulator. -/
def gmulLoop : Nat → Byte → Byte → Byte → Byte
  | 0, p, _, _ => p
  | n + 1, p, a, b => gmulLoop n (gmulTurn p a b).1 (gmulTurn p a b).2.1 (gmulTurn p a b).2.2

/-- `gmul(a, b)`, the product of two bytes in GF(2^8): the loop always runs 8 times (R107). -/
def gmul (a b : Byte) : Byte := gmulLoop 8 0 a b

/-- Bytewise XOR of two words of the AES key schedule (R105, R200). -/
def xorWord (a b : AesWord) : AesWord := Vector.ofFn fun i => a[i] ^^^ b[i]

/-- Bytewise XOR of two blocks (R105, R225). -/
def xorBlock (a b : Block) : Block := Vector.ofFn fun i => a[i] ^^^ b[i]

end Sys2Proof.Machine
end

