-- ==== Sys2Proof/Machine/Operands.lean ====
section
/-! DEFINITION. The hex front end and the operands of a command (40_primitives.md R100 to R108; 30_encoding.md
R88, R90).  A character is held as a 32-bit code. -/

namespace Sys2Proof.Machine

/-- `ishex(c)`: the whole 32-bit value is one of the 22 codes (R100). -/
def isHex (c : Word) : Bool :=
  (0x30#32 ≤ c && c ≤ 0x39#32) || (0x41#32 ≤ c && c ≤ 0x46#32) || (0x61#32 ≤ c && c ≤ 0x66#32)

/-- `hexval(c)` (R101).  It "is not defined on other characters and is never applied to one": START checks
first, and the last branch is never taken on a checked operand (assumption log 5). -/
def hexVal (c : Word) : BitVec 4 :=
  if c ≤ 0x39#32 then (c - 0x30#32).setWidth 4
  else if c ≤ 0x46#32 then (c - 0x41#32 + 10#32).setWidth 4
  else (c - 0x61#32 + 10#32).setWidth 4

/-- `digit(v)`: `0x30..0x39` for 0 to 9, `0x41..0x46` for 10 to 15, the upper-case letters (R103). -/
def digit (v : BitVec 4) : Word :=
  if v < 10#4 then 0x30#32 + v.setWidth 32 else 0x41#32 + (v.setWidth 32 - 10#32)

/-- The number a sequence of hex digits writes, the first digit the most significant (R102). -/
def hexNat (cs : List Word) : Nat := cs.foldl (fun acc c => 16 * acc + (hexVal c).toNat) 0

/-- `hexdec(c)`, the bit string of length `n = 4m` of `m` hex digits (R102). -/
def hexDec (n : Nat) (cs : List Word) : BitVec n := BitVec.ofNat n (hexNat cs)

/-- `hexenc(B)[i]`, the character of output digit `i` (R103). -/
def hexEncAt {n : Nat} (B : BitVec n) (i : Nat) : Word := digit (slice B (4 * i + 1) 4)

/-- `hexenc(B)` (R103). -/
def hexEnc {n : Nat} (B : BitVec n) : List Word := (List.range (n / 4)).map (hexEncAt B)

/-- AV's XOR helper on two hex strings, the shorter extended on the left with `0` digits (R108).  "The hardware
has no such path": no command uses it. -/
def hexXor (x y : List Word) : List Word :=
  hexEnc (hexDec (4 * max x.length y.length) x ^^^ hexDec (4 * max x.length y.length) y)

/-- `need(ALG)` for DES: 16 digits (R88). -/
abbrev needDes : Nat := 16

/-- `need(ALG)` for AES-128: 32 digits (R88). -/
abbrev needAes : Nat := 32

/-- What the test of one operand finds (R106). -/
inductive Check where
  | pass
  | length
  | charset (i : Nat)
  deriving DecidableEq, Repr

/-- The first `n` characters of a buffer, which are all that a command ever reads (R90, R341). -/
def operand (buf : Vector Word Config.bufCap) (n : Nat) : List Word := buf.toList.take n

/-- `check(buf, len, n)`: the length first, then the least offending index below `n` (R106). -/
def check (buf : Vector Word Config.bufCap) (len : Word) (n : Nat) : Check :=
  if len = BitVec.ofNat 32 n then
    match (operand buf n).findIdx? (fun c => !isHex c) with
    | none => .pass
    | some i => .charset i
  else .length

/-- The text or the key of a DES command as a bit string (R90). -/
def desOperand (buf : Vector Word Config.bufCap) : BitVec 64 := hexDec 64 (operand buf needDes)

/-- The text or the key of an AES command as bytes (R90, R104). -/
def aesOperand (buf : Vector Word Config.bufCap) : Block := bytesOf (hexDec 128 (operand buf needAes))

end Sys2Proof.Machine
end

