-- ==== Sys2Proof/Machine/Ops.lean ====
section
/-! DEFINITION. The operations that commands and engine steps share: START's clearing, ERROR ENTRY (AVCE's way of
taking an exception), the latching of the operands, the trace write and the completion (30_encoding.md R93;
60_exceptions.md R306; 43_des_commands.md R176; 47_aes_commands.md R266).

There is no return from an error: "There is no return-from-trap command" (R308).  The next START clears ERRINFO
and STATUS.DONE. -/

namespace Sys2Proof.Machine

/-- Steps 1 and 2 of START: CMD takes the written word, the results and the error are cleared (R93). -/
def clearForStart (v : Word) (a : Avce) : Avce :=
  { a with
    cmd := v
    done := false
    ok := false
    errinfo := ⟨0, 0, 0⟩
    outLen := 0
    outBuf := Vector.replicate 32 0
    dout := Vector.replicate 4 0
    traceLen := 0 }

/-- ERROR ENTRY, `raise E(sub, index)`: ERRINFO and STATUS.DONE are written and nothing else; there is no vector,
no saved program counter and no mode (R306). -/
def raiseError (cls : ErrClass) (sub : BitVec 4) (index : BitVec 8) (a : Avce) : Avce :=
  { a with errinfo := ⟨cls.code, sub, index⟩, done := true }

/-- The error entry of a word that R86 rejects (R87, R302). -/
def raiseDecodeError (e : DecodeError) (a : Avce) : Avce :=
  match e with
  | .unknownAlgorithm => raiseError .unsupportedOperation 1 0 a
  | .reservedBits => raiseError .unsupportedOperation 2 0 a

/-- The START of a word that R86 rejects: steps 1 to 3 (R87, R93). -/
def startRejected (v : Word) (e : DecodeError) (a : Avce) : Avce := raiseDecodeError e (clearForStart v a)

/-- The SUB and INDEX of the FormatError that step 4 of START raises, or none: the text's length, the text's
characters, the key's length, the key's characters, first failure first (R93, R301, R305). -/
def operandFault (need : Nat) (a : Avce) : Option (BitVec 4 × BitVec 8) :=
  match check a.textBuf a.textLen need with
  | .length => some (1, 0)
  | .charset i => some (2, BitVec.ofNat 8 i)
  | .pass =>
    match check a.keyBuf a.keyLen need with
    | .length => some (3, 0)
    | .charset i => some (4, BitVec.ofNat 8 i)
    | .pass => none

/-- Step 5 of START for ALG = 1 (R93). -/
def latchDes (dec trc : Bool) (a : Avce) : Avce :=
  { a with
    cmdr := ⟨1, dec, trc⟩
    dtext := desOperand a.textBuf
    dkey := desOperand a.keyBuf
    seq := .desPc1
    busy := true }

/-- Step 5 of START for ALG = 2 (R93). -/
def latchAes (dec trc : Bool) (a : Avce) : Avce :=
  { a with
    cmdr := ⟨2, dec, trc⟩
    atext := aesOperand a.textBuf
    akey := aesOperand a.keyBuf
    seq := .aesKx 0
    busy := true }

/-- The START of a DES command whose word is `v` (R93, R170); while BUSY the write is ignored (R94). -/
def startDes (v : Word) (dec trc : Bool) (a : Avce) : Avce :=
  if a.busy then a
  else
    match operandFault needDes a with
    | some (sub, index) => raiseError .formatError sub index (clearForStart v a)
    | none => latchDes dec trc (clearForStart v a)

/-- The START of an AES command whose word is `v` (R93, R260); while BUSY the write is ignored (R94). -/
def startAes (v : Word) (dec trc : Bool) (a : Avce) : Avce :=
  if a.busy then a
  else
    match operandFault needAes a with
    | some (sub, index) => raiseError .formatError sub index (clearForStart v a)
    | none => latchAes dec trc (clearForStart v a)

/-- The trace memory after a step writes `ws` from offset `off` on, if the command is traced (R29, R83). -/
def traceIf (a : Avce) (off : Nat) (ws : List Word) : Memory :=
  if a.cmdr.trc then a.trace.writeWords off ws else a.trace

/-- OUT_BUF with the first `n` characters replaced by those of `hexenc(B)`; the rest "stay 0 as START left
them" (R176, R266). -/
def putDigits {m : Nat} (n : Nat) (B : BitVec m) (buf : Vector Word Config.bufCap) : Vector Word Config.bufCap :=
  Vector.ofFn fun i => if i.val < n then hexEncAt B i.val else buf[i]

/-- Completion of a DES command with the result `OUT` (R176). -/
def completeDes (out : BitVec 64) (a : Avce) : Avce :=
  { a with
    dout := #v[hiWord out, loWord out, 0, 0]
    outBuf := putDigits 16 out a.outBuf
    outLen := 16
    traceLen := if a.cmdr.trc then 400 else 0
    done := true
    ok := true
    busy := false
    seq := .idle }

/-- Completion of an AES command with the result `OUT` (R266), its trace writes apart. -/
def completeAes (out : Block) (a : Avce) : Avce :=
  { a with
    dout := #v[blockWord out 0, blockWord out 1, blockWord out 2, blockWord out 3]
    outBuf := putDigits 32 (blockBits out) a.outBuf
    outLen := 32
    traceLen := if a.cmdr.trc then 720 else 0
    done := true
    ok := true
    busy := false
    seq := .idle }

end Sys2Proof.Machine
end

