-- ==== Sys2Proof/Machine/AesCommands.lean ====
section
/-! DEFINITION. The meanings of the four AES commands (47_aes_commands.md R260 to R264).

As for DES: the write of the command word is the START; the 56 steps of R265 are the engine's, one `step` of the
machine each (Engine.lean). -/

namespace Sys2Proof.Machine

/-- AES.ENC (R261): DEC = 0, TRC = 0. -/
def execAesEnc (s : State) : Host.Outcome State Fault Refusal :=
  .next { s with avce := startAes (encode .aesEnc) false false s.avce }

/-- AES.DEC (R262): DEC = 1, TRC = 0. -/
def execAesDec (s : State) : Host.Outcome State Fault Refusal :=
  .next { s with avce := startAes (encode .aesDec) true false s.avce }

/-- AES.ENC.T (R263): DEC = 0, TRC = 1. -/
def execAesEncT (s : State) : Host.Outcome State Fault Refusal :=
  .next { s with avce := startAes (encode .aesEncT) false true s.avce }

/-- AES.DEC.T (R264): DEC = 1, TRC = 1. -/
def execAesDecT (s : State) : Host.Outcome State Fault Refusal :=
  .next { s with avce := startAes (encode .aesDecT) true true s.avce }

end Sys2Proof.Machine
end

