-- ==== Sys2Proof/Machine/DesCommands.lean ====
section
/-! DEFINITION. The meanings of the four DES commands (43_des_commands.md R170 to R174).

A command is "START, then the 35 steps of rule R175".  What the write of its word does at once is the START, and
that is its meaning here; the 35 steps are the engine's, one `step` of the machine each (Engine.lean), with host
accesses between them in any interleaving (00_scope.md R14). -/

namespace Sys2Proof.Machine

/-- DES.ENC (R171): DEC = 0, TRC = 0. -/
def execDesEnc (s : State) : Host.Outcome State Fault Refusal :=
  .next { s with avce := startDes (encode .desEnc) false false s.avce }

/-- DES.DEC (R172): DEC = 1, TRC = 0. -/
def execDesDec (s : State) : Host.Outcome State Fault Refusal :=
  .next { s with avce := startDes (encode .desDec) true false s.avce }

/-- DES.ENC.T (R173): DEC = 0, TRC = 1. -/
def execDesEncT (s : State) : Host.Outcome State Fault Refusal :=
  .next { s with avce := startDes (encode .desEncT) false true s.avce }

/-- DES.DEC.T (R174): DEC = 1, TRC = 1. -/
def execDesDecT (s : State) : Host.Outcome State Fault Refusal :=
  .next { s with avce := startDes (encode .desDecT) true true s.avce }

end Sys2Proof.Machine
end

