-- ==== Sys2Proof/Machine/Dispatch.lean ====
section
/-! DEFINITION. The meaning of every command: what the write of its word to CMD does (30_encoding.md R85, R93). -/

namespace Sys2Proof.Machine

/-- One arm per constructor, each one direct call of the command's own meaning. -/
def exec (i : Instr) (s : State) : Host.Outcome State Fault Refusal :=
  match i with
  | .desEnc => Sys2Proof.Machine.execDesEnc s
  | .desDec => Sys2Proof.Machine.execDesDec s
  | .desEncT => Sys2Proof.Machine.execDesEncT s
  | .desDecT => Sys2Proof.Machine.execDesDecT s
  | .aesEnc => Sys2Proof.Machine.execAesEnc s
  | .aesDec => Sys2Proof.Machine.execAesDec s
  | .aesEncT => Sys2Proof.Machine.execAesEncT s
  | .aesDecT => Sys2Proof.Machine.execAesDecT s

end Sys2Proof.Machine
end

