-- ==== Sys2Proof/Machine/Aes.lean ====
section
/-! DEFINITION. The AES-128 key expansion, cipher and inverse cipher as functions of bytes
(44_aes_key_expansion.md R200 to R208; 45_aes_cipher.md R220 to R230; 46_aes_inverse.md R240 to R248).  The engine
steps of AesSteps.lean compute with the same stage functions. -/

namespace Sys2Proof.Machine

/-- `RotWord([a0,a1,a2,a3]) = [a1,a2,a3,a0]` (R202). -/
def rotWord (a : AesWord) : AesWord := #v[a[1], a[2], a[3], a[0]]

/-- `SubWord` (R203). -/
def subWord (a : AesWord) : AesWord := #v[sbox a[0], sbox a[1], sbox a[2], sbox a[3]]

/-- The XOR with the Rcon word of special word `i`, of which only the first byte is nonzero (R205, R206). -/
def rconXor (i : Nat) (a : AesWord) : AesWord := #v[a[0] ^^^ rcon (i / 4 - 1), a[1], a[2], a[3]]

/-- `RCX` of special word `i`, from `W[i-1]` (R206). -/
def specialTerm (i : Nat) (prev : AesWord) : AesWord := rconXor i (subWord (rotWord prev))

/-- Bytes `4i..4i+3` of a block, `i = 0..3` (R201). -/
def chunk (b : Block) (i : Fin 4) : AesWord :=
  #v[b[4 * i.val], b[4 * i.val + 1], b[4 * i.val + 2], b[4 * i.val + 3]]

/-- Words `4k..4k+3` from words `4k-4..4k-1`: the special word first (R206), then three ordinary ones (R207). -/
def nextQuad (k : Nat) (q : Vector AesWord 4) : Vector AesWord 4 :=
  let w0 := xorWord (specialTerm (4 * k) q[3]) q[0]
  let w1 := xorWord w0 q[1]
  let w2 := xorWord w1 q[2]
  #v[w0, w1, w2, xorWord w2 q[3]]

/-- Words `W[4k..4k+3]` of a key's schedule (R200). -/
def aesQuad (key : Block) : Nat → Vector AesWord 4
  | 0 => #v[chunk key 0, chunk key 1, chunk key 2, chunk key 3]
  | k + 1 => nextQuad (k + 1) (aesQuad key k)

/-- `W[i]` of a key's schedule, `i = 0..43` (R200). -/
def aesWordAt (key : Block) (i : Nat) : AesWord := (aesQuad key (i / 4))[i % 4]'(Nat.mod_lt i (by decide))

/-- Four words as 16 bytes: byte `4c + r` is byte `r` of word `c` (R208). -/
def joinWords (q : Vector AesWord 4) : Block :=
  Vector.ofFn fun i => (q[i.val / 4]'(by omega))[i.val % 4]'(Nat.mod_lt i.val (by decide))

/-- Round key `k` of a key, `k = 0..10` (R208). -/
def aesRoundKey (key : Block) (k : Nat) : Block := joinWords (aesQuad key k)

/-- `SubBytes` (R222). -/
def subBytes (s : Block) : Block := Vector.ofFn fun i => sbox s[i]

/-- `InvSubBytes` (R242). -/
def invSubBytes (s : Block) : Block := Vector.ofFn fun i => invSbox s[i]

/-- `ShiftRows`: `new[r + 4c] = old[r + 4((c + r) mod 4)]` (R223). -/
def shiftRows (s : Block) : Block :=
  Vector.ofFn fun i => s[i.val % 4 + 4 * ((i.val / 4 + i.val % 4) % 4)]'(by omega)

/-- `InvShiftRows`: `new[r + 4c] = old[r + 4((c - r) mod 4)]` (R240); `c - r` is taken as `c + 4 - r`. -/
def invShiftRows (s : Block) : Block :=
  Vector.ofFn fun i => s[i.val % 4 + 4 * ((i.val / 4 + 4 - i.val % 4) % 4)]'(by omega)

/-- The product in GF(2^8) of row `r` of the matrix whose row 0 is `row` and the column `a` (R224, R243). -/
def mixedByte (row : Vector Byte 4) (r : Nat) (a : AesWord) : Byte :=
  gmul (circulantEntry row r 0) a[0] ^^^ gmul (circulantEntry row r 1) a[1] ^^^
    gmul (circulantEntry row r 2) a[2] ^^^ gmul (circulantEntry row r 3) a[3]

/-- Every column of the state by the matrix whose row 0 is `row` (R224, R243); byte `r + 4c` of a block is row `r`,
column `c` (R220). -/
def mixWith (row : Vector Byte 4) (s : Block) : Block :=
  Vector.ofFn fun i => mixedByte row (i.val % 4) (chunk s ⟨i.val / 4, by omega⟩)

/-- `MixColumns` (R224). -/
def mixColumns (s : Block) : Block := mixWith mixRow s

/-- `InvMixColumns` (R243). -/
def invMixColumns (s : Block) : Block := mixWith invMixRow s

/-- Encryption round `n = 1..10` with its round key: round 10 skips MixColumns (R228, R229). -/
def aesEncRound (n : Nat) (s rk : Block) : Block :=
  if n < 10 then xorBlock (mixColumns (shiftRows (subBytes s))) rk
  else xorBlock (shiftRows (subBytes s)) rk

/-- Decryption round `n = 1..10` with its round key, which is added before InvMixColumns (R245, R246). -/
def aesDecRound (n : Nat) (s rk : Block) : Block :=
  if n < 10 then invMixColumns (xorBlock (invSubBytes (invShiftRows s)) rk)
  else xorBlock (invSubBytes (invShiftRows s)) rk

/-- The index of the round key that step `n = 0..10` of the data path uses (R228, R248). -/
def roundKeyIndex (dec : Bool) (n : Nat) : Nat := if dec then 10 - n else n

/-- The state after the initial AddRoundKey and `n` rounds, `n = 0..10` (R227 to R229, R244 to R246). -/
def aesState (dec : Bool) (text key : Block) : Nat → Block
  | 0 => xorBlock text (aesRoundKey key (roundKeyIndex dec 0))
  | n + 1 =>
    if dec then aesDecRound (n + 1) (aesState dec text key n) (aesRoundKey key (roundKeyIndex dec (n + 1)))
    else aesEncRound (n + 1) (aesState dec text key n) (aesRoundKey key (roundKeyIndex dec (n + 1)))

/-- `AES_E(T, KEY)` (R230). -/
def aesE (text key : Block) : Block := aesState false text key 10

/-- `AES_D(T, KEY)` (R247). -/
def aesD (text key : Block) : Block := aesState true text key 10

end Sys2Proof.Machine
end

