-- ==== Sys2Proof/Machine/AesSteps.lean ====
section
/-! DEFINITION. The engine steps of an AES command and the trace records they write (44_aes_key_expansion.md R209;
45_aes_cipher.md R231, R232; 46_aes_inverse.md R250, R251; 47_aes_commands.md R265 to R271). -/

namespace Sys2Proof.Machine

/-- The header words 0 to 15 as step (AES_KX, 0) writes them: words 9 to 12 are written 0 here and get their
values from AES_OUT (R267). -/
def aesHeader (cmd : Word) (key text : Block) : List Word :=
  [cmd] ++ blockWords key ++ blockWords text ++ [0, 0, 0, 0, 0, 0, 0]

/-- Key-word record `i` of a word `wi` whose predecessor is `prev`; the intermediates of a word that is not special
are stored as 0 (R268). -/
def aesKeyRecord (i : Nat) (prev wi : AesWord) : List Word :=
  if specialFlag i then
    [BitVec.ofNat 32 i, 1, wordBits (rotWord prev), wordBits (subWord (rotWord prev)),
      wordBits (specialTerm i prev), wordBits #v[rcon (i / 4 - 1), 0, 0, 0], wordBits wi, 0]
  else [BitVec.ofNat 32 i, 0, 0, 0, 0, 0, wordBits wi, 0]

/-- An absent stage: four words stored as 0 (R269, R270). -/
def absent : List Word := [0, 0, 0, 0]

/-- Words 0 to 3 of round record `n` (R269, R270). -/
def aesRecordHead (n kn : Nat) : List Word :=
  [BitVec.ofNat 32 n, BitVec.ofNat 32 kn, flagWord (hasSubFlag n), flagWord (hasMixFlag n)]

/-- Round record 0 of an encryption (R269). -/
def aesEncRecordZero (inp rk out : Block) : List Word :=
  aesRecordHead 0 0 ++ blockWords inp ++ absent ++ absent ++ absent ++ blockWords rk ++
    blockWords out ++ blockWords out

/-- Round record `n = 1..10` of an encryption round from the state `inp` with round key `rk` (R269, R232). -/
def aesEncRecord (n : Nat) (inp rk : Block) : List Word :=
  aesRecordHead n n ++ blockWords inp ++ blockWords (subBytes inp) ++ blockWords (shiftRows (subBytes inp)) ++
    (if hasMixFlag n then blockWords (mixColumns (shiftRows (subBytes inp))) else absent) ++ blockWords rk ++
    blockWords (aesEncRound n inp rk) ++ blockWords (aesEncRound n inp rk)

/-- Round record 0 of a decryption (R270). -/
def aesDecRecordZero (inp rk out : Block) : List Word :=
  aesRecordHead 0 10 ++ blockWords inp ++ absent ++ absent ++ blockWords rk ++ blockWords out ++ absent ++
    blockWords out

/-- Round record `n = 1..10` of a decryption round from the state `inp` with round key `rk` (R270, R251). -/
def aesDecRecord (n : Nat) (inp rk : Block) : List Word :=
  aesRecordHead n (10 - n) ++ blockWords inp ++ blockWords (invShiftRows inp) ++
    blockWords (invSubBytes (invShiftRows inp)) ++ blockWords rk ++
    blockWords (xorBlock (invSubBytes (invShiftRows inp)) rk) ++
    (if hasMixFlag n then blockWords (aesDecRound n inp rk) else absent) ++ blockWords (aesDecRound n inp rk)

/-- The place of key-word record `i`, `i = 0..43` (R268). -/
def aesKeyOffset (i : Nat) : Nat := 16 + 8 * i

/-- The place of round record `n`, `n = 0..10` (R269). -/
def aesRoundOffset (n : Nat) : Nat := 368 + 32 * n

/-- `W[i-1]`, which words 4 to 43 read (R209); the first words have no predecessor and read none. -/
def prevWord (w : Vector AesWord 44) (i : Fin 44) : AesWord := w[i.val - 1]

/-- The word that step (AES_KX, i) computes: a copy of key bytes (R201), a special word (R206) or an ordinary one
(R207). -/
def expandWord (key : Block) (w : Vector AesWord 44) (i : Fin 44) : AesWord :=
  if h : i.val < 4 then chunk key ⟨i.val, h⟩
  else if i.val % 4 = 0 then xorWord (specialTerm i.val (prevWord w i)) w[i.val - 4]
  else xorWord (prevWord w i) w[i.val - 4]

/-- Step (AES_KX, i) (R209).  Step (AES_KX, 0) writes 24 trace words: the header and, right behind it, record 0. -/
def stepAesKx (i : Fin 44) (a : Avce) : Avce :=
  let wi := expandWord a.akey a.w i
  let record := aesKeyRecord i.val (prevWord a.w i) wi
  { a with
    w := a.w.set i wi
    trace :=
      if i.val = 0 then traceIf a 0 (aesHeader a.cmd a.akey a.atext ++ record)
      else traceIf a (aesKeyOffset i.val) record
    seq := if h : i.val + 1 < 44 then .aesKx ⟨i.val + 1, h⟩ else .aesArk0 }

/-- Round key `k` read from the registers W[4k..4k+3] (R208). -/
def roundKeyReg (w : Vector AesWord 44) (k : Fin 11) : Block :=
  joinWords #v[w[4 * k.val], w[4 * k.val + 1], w[4 * k.val + 2], w[4 * k.val + 3]]

/-- The round key that step `n = 0..10` of the data path reads: `RK_n`, or `RK_{10-n}` for decryption (R231,
R232, R250, R251). -/
def roundKeyFor (a : Avce) (n : Fin 11) : Block := roundKeyReg a.w (if a.cmdr.dec then n.rev else n)

/-- Step AES_ARK0 (R231 for DEC = 0, R250 for DEC = 1). -/
def stepAesArk0 (a : Avce) : Avce :=
  let rk := roundKeyFor a 0
  let s := xorBlock a.atext rk
  { a with
    st := s
    trace := traceIf a (aesRoundOffset 0)
      (if a.cmdr.dec then aesDecRecordZero a.atext rk s else aesEncRecordZero a.atext rk s)
    seq := .aesRnd 0 }

/-- Step (AES_RND, n), `n = r + 1` (R232 for DEC = 0, R251 for DEC = 1). -/
def stepAesRnd (r : Fin 10) (a : Avce) : Avce :=
  let n := r.val + 1
  let rk := roundKeyFor a r.succ
  { a with
    st := if a.cmdr.dec then aesDecRound n a.st rk else aesEncRound n a.st rk
    trace := traceIf a (aesRoundOffset n) (if a.cmdr.dec then aesDecRecord n a.st rk else aesEncRecord n a.st rk)
    seq := if h : r.val + 1 < 10 then .aesRnd ⟨r.val + 1, h⟩ else .aesOut }

/-- Step AES_OUT, the completion of an AES command (R266). -/
def stepAesOut (a : Avce) : Avce :=
  completeAes a.st { a with trace := traceIf a 9 (blockWords a.st) }

end Sys2Proof.Machine
end

