-- ==== Sys2Proof/Machine/Des.lean ====
section
/-! DEFINITION. The DES key schedule and data path as functions of bit strings (41_des_key_schedule.md R120 to
R129; 42_des_datapath.md R140 to R162).  The engine steps of DesSteps.lean compute with the same round functions. -/

namespace Sys2Proof.Machine

/-- The two 28-bit halves of a 56-bit string (R122). -/
def keyHalves (CD : BitVec 56) : BitVec 28 × BitVec 28 := (slice CD 1 28, slice CD 29 28)

/-- The two 32-bit halves of a 64-bit string (R142). -/
def dataHalves (B : BitVec 64) : BitVec 32 × BitVec 32 := (slice B 1 32, slice B 33 32)

/-- `K[i] = perm(PC2, C ‖ D)`, from the halves after the rotation of round `i` (R126). -/
def subkeyOf (c d : BitVec 28) : BitVec 48 := perm 48 pc2Table (c ++ d)

/-- Both halves rotated by the amount of round `i`, each within its own 28 bits (R124). -/
def rotateHalves (i : Nat) (CD : BitVec 28 × BitVec 28) : BitVec 28 × BitVec 28 :=
  (rotl CD.1 (shiftAmount i), rotl CD.2 (shiftAmount i))

/-- `(C_i, D_i)` for a key, `i = 0..16` (R120, R122, R124). -/
def desHalves (key : BitVec 64) : Nat → BitVec 28 × BitVec 28
  | 0 => keyHalves (perm 56 pc1Table key)
  | i + 1 => rotateHalves (i + 1) (desHalves key i)

/-- `K[i]` for a key, `i = 1..16` (R120, R126). -/
def desSubkey (key : BitVec 64) (i : Nat) : BitVec 48 := subkeyOf (desHalves key i).1 (desHalves key i).2

/-- `kidx(n)`, the index of the subkey that data round `n` uses (R128). -/
def kidx (dec : Bool) (n : Nat) : Nat := if dec then 17 - n else n

/-- The entry of an S-box for one 6-bit chunk: the row from its first and last bit, the column from the middle
four (R145). -/
def sboxOut (box : List (List Nat)) (chunk : BitVec 6) : BitVec 4 :=
  BitVec.ofNat 4 ((box.getD (slice chunk 1 1 ++ slice chunk 6 1).toNat []).getD (slice chunk 2 4).toNat 0)

/-- `S(X)`: the eight outputs concatenated, chunk 1's first (R145). -/
def sboxes (X : BitVec 48) : BitVec 32 :=
  sboxOut sbox1 (slice X 1 6) ++ sboxOut sbox2 (slice X 7 6) ++ sboxOut sbox3 (slice X 13 6) ++
    sboxOut sbox4 (slice X 19 6) ++ sboxOut sbox5 (slice X 25 6) ++ sboxOut sbox6 (slice X 31 6) ++
    sboxOut sbox7 (slice X 37 6) ++ sboxOut sbox8 (slice X 43 6)

/-- `ER = perm(E, R)` (R143). -/
def expandR (R : BitVec 32) : BitVec 48 := perm 48 eTable R

/-- `f(R, K) = perm(P, S(perm(E, R) ^ K))` (R155). -/
def desF (R : BitVec 32) (K : BitVec 48) : BitVec 32 := perm 32 pTable (sboxes (expandR R ^^^ K))

/-- The pair that round `n` leaves: rounds 1 to 15 swap (R157), round 16 does not (R158). -/
def desPairAfter (n : Nat) (R LXF : BitVec 32) : BitVec 32 × BitVec 32 :=
  if n < 16 then (R, LXF) else (LXF, R)

/-- Round `n` on the pair `(L, R)` with its subkey (R156 to R158). -/
def desRound (n : Nat) (LR : BitVec 32 × BitVec 32) (K : BitVec 48) : BitVec 32 × BitVec 32 :=
  desPairAfter n LR.2 (LR.1 ^^^ desF LR.2 K)

/-- The pair `(L, R)` after `n` data rounds, `n = 0..16` (R142, R156). -/
def desPair (dec : Bool) (text key : BitVec 64) : Nat → BitVec 32 × BitVec 32
  | 0 => dataHalves (perm 64 ipTable text)
  | n + 1 => desRound (n + 1) (desPair dec text key n) (desSubkey key (kidx dec (n + 1)))

/-- `perm(FP, L ‖ R)` (R159). -/
def finalPerm (L R : BitVec 32) : BitVec 64 := perm 64 fpTable (L ++ R)

/-- The DES block function in one direction (R161, R162). -/
def desBlock (dec : Bool) (text key : BitVec 64) : BitVec 64 :=
  finalPerm (desPair dec text key 16).1 (desPair dec text key 16).2

/-- `DES_E(T, KEY)` (R161). -/
def desE (text key : BitVec 64) : BitVec 64 := desBlock false text key

/-- `DES_D(T, KEY)` (R162). -/
def desD (text key : BitVec 64) : BitVec 64 := desBlock true text key

end Sys2Proof.Machine
end

