-- ==== Sys2Proof/Machine/DesSteps.lean ====
section
/-! DEFINITION. The engine steps of a DES command and the trace records they write (41_des_key_schedule.md R130,
R131; 42_des_datapath.md R164 to R166; 43_des_commands.md R175 to R180). -/

namespace Sys2Proof.Machine

/-- The header words 0 to 15 as step DES_PC1 writes them: words 7 to 12 are written 0 here and get their values
from DES_IP and DES_FP (R177). -/
def desHeader (cmd : Word) (key text : BitVec 64) (c d : BitVec 28) : List Word :=
  [cmd, hiWord key, loWord key, hiWord text, loWord text, loWord c, loWord d, 0, 0, 0, 0, 0, 0, 0, 0, 0]

/-- Key-schedule record `i` (R178). -/
def desKeyRecord (i : Nat) (cPre dPre c d : BitVec 28) (k : BitVec 48) : List Word :=
  [loWord cPre, loWord dPre, loWord c, loWord d, hiWord k, loWord k,
    BitVec.ofNat 32 (shiftAmount i), BitVec.ofNat 32 i]

/-- Round record `n` of a round that starts from `(L, R)` with subkey number `kn`, `k` (R179, R165). -/
def desRoundRecord (n kn : Nat) (L R : BitVec 32) (k : BitVec 48) : List Word :=
  [BitVec.ofNat 32 n, BitVec.ofNat 32 kn, L, R, hiWord k, loWord k,
    hiWord (expandR R), loWord (expandR R), hiWord (expandR R ^^^ k), loWord (expandR R ^^^ k),
    sboxes (expandR R ^^^ k), desF R k, L ^^^ desF R k,
    (desPairAfter n R (L ^^^ desF R k)).1, (desPairAfter n R (L ^^^ desF R k)).2, flagWord (swappedFlag n)]

/-- The place of key-schedule record `i`, `i = 1..16` (R178). -/
def desKeyOffset (i : Nat) : Nat := 16 + 8 * (i - 1)

/-- The place of round record `n`, `n = 1..16` (R179). -/
def desRoundOffset (n : Nat) : Nat := 144 + 16 * (n - 1)

/-- Step DES_PC1 (R130). -/
def stepDesPc1 (a : Avce) : Avce :=
  let CD := keyHalves (perm 56 pc1Table a.dkey)
  { a with
    c := CD.1
    d := CD.2
    trace := traceIf a 0 (desHeader a.cmd a.dkey a.dtext CD.1 CD.2)
    seq := .desKs 0 }

/-- Step (DES_KS, i), `i = r + 1` (R131). -/
def stepDesKs (r : Fin 16) (a : Avce) : Avce :=
  let i := r.val + 1
  let c := rotl a.c (shiftAmount i)
  let d := rotl a.d (shiftAmount i)
  { a with
    c := c
    d := d
    k := a.k.set r (subkeyOf c d)
    trace := traceIf a (desKeyOffset i) (desKeyRecord i a.c a.d c d (subkeyOf c d))
    seq := if h : r.val + 1 < 16 then .desKs ⟨r.val + 1, h⟩ else .desIp }

/-- Step DES_IP (R164). -/
def stepDesIp (a : Avce) : Avce :=
  let LR := dataHalves (perm 64 ipTable a.dtext)
  { a with
    l := LR.1
    r := LR.2
    trace := traceIf a 7 [LR.1, LR.2]
    seq := .desRnd 0 }

/-- The subkey register that round `n = r + 1` reads: `K[n]`, or `K[17-n]` for decryption (R128, R165). -/
def roundSubkey (r : Fin 16) (a : Avce) : BitVec 48 := a.k[(if a.cmdr.dec then r.rev else r).val]

/-- Step (DES_RND, n), `n = r + 1` (R165). -/
def stepDesRnd (r : Fin 16) (a : Avce) : Avce :=
  let n := r.val + 1
  let k := roundSubkey r a
  let LR := desRound n (a.l, a.r) k
  { a with
    l := LR.1
    r := LR.2
    trace := traceIf a (desRoundOffset n) (desRoundRecord n (kidx a.cmdr.dec n) a.l a.r k)
    seq := if h : r.val + 1 < 16 then .desRnd ⟨r.val + 1, h⟩ else .desFp }

/-- Step DES_FP, the last step of every DES command (R166, R176). -/
def stepDesFp (a : Avce) : Avce :=
  let out := finalPerm a.l a.r
  completeDes out { a with trace := traceIf a 9 [a.l, a.r, hiWord out, loWord out] }

end Sys2Proof.Machine
end

