-- ==== Sys2Proof/Machine/Engine.lean ====
section
/-! DEFINITION. The engine: one atomic step of the sequencer (00_scope.md R14; 10_state.md R30). -/

namespace Sys2Proof.Machine

/-- The step that SEQ selects (R30). -/
def sequencedStep (a : Avce) : Avce :=
  match a.seq with
  | .idle => a
  | .desPc1 => stepDesPc1 a
  | .desKs r => stepDesKs r a
  | .desIp => stepDesIp a
  | .desRnd r => stepDesRnd r a
  | .desFp => stepDesFp a
  | .aesKx i => stepAesKx i a
  | .aesArk0 => stepAesArk0 a
  | .aesRnd r => stepAesRnd r a
  | .aesOut => stepAesOut a

/-- One engine step.  The engine acts "only while `STATUS.BUSY = 1`" (R14); otherwise it does nothing and holds its
registers (R320). -/
def engineStep (a : Avce) : Avce := if a.busy then sequencedStep a else a

/-- `n` engine steps with no host access between them. -/
def engineSteps : Nat → Avce → Avce
  | 0, a => a
  | n + 1, a => engineSteps n (engineStep a)

end Sys2Proof.Machine
end

