-- ==== Sys2Proof/Machine/RegisterMap.lean ====
section
/-! DEFINITION. The register map and the read of a register (20_memory.md R50 to R59). -/

namespace Sys2Proof.Machine

/-- What a register number names (R51). -/
inductive RegName where
  | id
  | cmd
  | status
  | errinfo
  | textLen
  | keyLen
  | outLen
  | traceLen
  | dout (i : Fin 4)
  | textBuf (i : Fin 32)
  | keyBuf (i : Fin 32)
  | outBuf (i : Fin 32)
  | trace (i : Fin 1024)
  | unmapped
  deriving DecidableEq, Repr

/-- The constant that ID reads (10_state.md R21). -/
def idValue : Word := 0x41560007

/-- R51's table.  "Every number not listed is unmapped". -/
def regName (n : RegNo) : RegName :=
  if n.toNat = 0x000 then .id
  else if n.toNat = 0x001 then .cmd
  else if n.toNat = 0x002 then .status
  else if n.toNat = 0x003 then .errinfo
  else if n.toNat = 0x004 then .textLen
  else if n.toNat = 0x005 then .keyLen
  else if n.toNat = 0x006 then .outLen
  else if n.toNat = 0x007 then .traceLen
  else if h : 0x008 ≤ n.toNat ∧ n.toNat < 0x008 + 4 then .dout ⟨n.toNat - 0x008, by omega⟩
  else if h : 0x020 ≤ n.toNat ∧ n.toNat < 0x020 + 32 then .textBuf ⟨n.toNat - 0x020, by omega⟩
  else if h : 0x040 ≤ n.toNat ∧ n.toNat < 0x040 + 32 then .keyBuf ⟨n.toNat - 0x040, by omega⟩
  else if h : 0x060 ≤ n.toNat ∧ n.toNat < 0x060 + 32 then .outBuf ⟨n.toNat - 0x060, by omega⟩
  else if h : 0x400 ≤ n.toNat ∧ n.toNat < 0x400 + 1024 then .trace ⟨n.toNat - 0x400, by omega⟩
  else .unmapped

/-- The TRACE read gate: the stored word below TRACE_LEN, 0 from there on (R59). -/
def gatedTrace (a : Avce) (i : Nat) : Word :=
  if i < a.traceLen.toNat then a.trace.readWord i else 0

/-- The word that a named register reads (R21 to R29, R53, R59). -/
def readReg (a : Avce) : RegName → Word
  | .id => idValue
  | .cmd => a.cmd
  | .status => statusWord a
  | .errinfo => errWord a.errinfo
  | .textLen => a.textLen
  | .keyLen => a.keyLen
  | .outLen => a.outLen
  | .traceLen => a.traceLen
  | .dout i => a.dout[i]
  | .textBuf i => a.textBuf[i]
  | .keyBuf i => a.keyBuf[i]
  | .outBuf i => a.outBuf[i]
  | .trace i => gatedTrace a i.val
  | .unmapped => 0

/-- `MemRead(n, 4)`: always one whole 32-bit word, and no read has a side effect (R52, R55). -/
def hostRead (a : Avce) (n : RegNo) : Word := readReg a (regName n)

/-- The effect of writing `v` to a named register other than CMD while BUSY = 0: the input registers store all
32 bits (R56), a read-only register (R54) and an unmapped number (R53) ignore the write.  A write to CMD is a
START and is not made here (HostPort.lean). -/
def writeReg (a : Avce) (v : Word) : RegName → Avce
  | .textLen => { a with textLen := v }
  | .keyLen => { a with keyLen := v }
  | .textBuf i => { a with textBuf := a.textBuf.set i v }
  | .keyBuf i => { a with keyBuf := a.keyBuf.set i v }
  | .id => a
  | .cmd => a
  | .status => a
  | .errinfo => a
  | .outLen => a
  | .traceLen => a
  | .dout _ => a
  | .outBuf _ => a
  | .trace _ => a
  | .unmapped => a

end Sys2Proof.Machine
end

