-- ==== Sys2Proof/Machine/HostPort.lean ====
section
/-! DEFINITION. The host's accesses: writes, reads, POLL and reset (20_memory.md R52 to R57; 30_encoding.md R93,
R94, R96; 70_reset_and_hazards.md R330, R334). -/

namespace Sys2Proof.Machine

/-- A write of `v` to CMD while BUSY = 0: CMD is stored and the word is decoded; a command runs its START, a
rejected word takes the error entry (R22, R86, R87, R93). -/
def startWord (v : Word) (s : State) : Host.Outcome State Fault Refusal :=
  match decode v with
  | .command i => exec i s
  | .rejected e => .next { s with avce := startRejected v e s.avce }

/-- `MemWrite(n, 4, v)`.  While BUSY every write, to any register number, is ignored (R57, R94). -/
def hostWrite (n : RegNo) (v : Word) (s : State) : Host.Outcome State Fault Refusal :=
  if s.avce.busy then .next s
  else if regName n = .cmd then startWord v s
  else .next { s with avce := writeReg s.avce v (regName n) }

/-- The register number of STATUS, which POLL reads (R51, R96). -/
def statusRegNo : RegNo := 0x002

/-- One read of POLL, and if BUSY reads 1, the POLL again after one more engine step (R96; assumption log 1:
between two reads of a POLL the model puts one engine step, as the spec's reference model does). -/
def pollOnce (s : State) : State :=
  let v := hostRead s.avce statusRegNo
  if v.getLsbD 0 then { s with rdata := v, schedule := .engine :: .poll :: s.schedule }
  else { s with rdata := v }

/-- What one event does (R14). -/
def runEvent (e : Event) (s : State) : Host.Outcome State Fault Refusal :=
  match e with
  | .rd n => .next { s with rdata := hostRead s.avce n }
  | .wr n v => hostWrite n v s
  | .poll => .next (pollOnce s)
  | .reset => .next { s with avce := Avce.reset }
  | .engine => .next { s with avce := engineStep s.avce }

/-- The next event of the schedule is taken.  Where no host access is to come, the engine takes its next step if
it has one (weak fairness, R14) and the machine holds its registers otherwise (R320). -/
def takeStep (s : State) : Host.Outcome State Fault Refusal :=
  match s.schedule with
  | [] => .next { s with avce := engineStep s.avce }
  | e :: rest => runEvent e { s with schedule := rest }

/-- The register number of CMD (R51). -/
def cmdRegNo : RegNo := 0x001

/-- The schedule that writes one word to CMD and goes on as before. -/
def scheduleCommand (v : Word) (s : State) : State := { s with schedule := .wr cmdRegNo v :: s.schedule }

/-- The writes that place a string in a buffer whose first register is `base`: at most its first 32 characters
(R96). -/
def bufferWrites (base : Nat) (cs : List Word) : List Event :=
  ((cs.take Config.bufCap).zipIdx).map fun e => .wr (BitVec.ofNat 11 (base + e.2)) e.1

/-- The word written to a length register for a string of `n` characters: its true length (R96).  R96 does not say what
is written for a string of 2^32 or more characters, whose length no 32-bit word holds.  DESIGN CHOICE (assumption
log 11): the greatest word, a wrong length for every command, so that the START still raises the FormatError that
R96 says it must raise. -/
def lengthWord (n : Nat) : Word := BitVec.ofNat 32 (min n (2 ^ 32 - 1))

/-- The expansion of the pseudo-instruction `<mnemonic> text=T, key=K` (R96; steps 2 to 4 of R334). -/
def commandProgram (i : Instr) (text key : List Word) : List Event :=
  bufferWrites 0x020 text ++ bufferWrites 0x040 key ++
    [.wr 0x004 (lengthWord text.length), .wr 0x005 (lengthWord key.length),
      .wr cmdRegNo (encode i), .poll]

end Sys2Proof.Machine
end

