-- ==== Sys2Proof/Machine/Step.lean ====
section
/-! DEFINITION. One step of the machine: one host access or one engine step, each atomic (00_scope.md R14). -/

namespace Sys2Proof.Machine

/-- One step (`takeStep` of HostPort.lean). -/
def step (s : State) : Host.Outcome State Fault Refusal := takeStep s

/-- AVCE fetches no instructions (20_memory.md R66): what plays that part is the word a host writes to CMD.  So an
instruction stands where the next step takes it when that write is the next event; the rest of the schedule and
every register stay as they are (assumption log 7). -/
def State.withFetchWord (s : State) (nbits w : Nat) : State :=
  scheduleCommand (BitVec.ofNat 32 (w % 2 ^ nbits)) s

end Sys2Proof.Machine
end

