-- ==== Sys2Proof/Machine/TraceLayout.lean ====
section
/-! DEFINITION. The whole trace of a traced command as a function of its text and key (43_des_commands.md R177 to
R180; 47_aes_commands.md R267 to R271): what the trace memory holds when the command has finished, apart from the
registers that hold the values on the way. -/

namespace Sys2Proof.Machine

/-- The finished header of a DES trace, TRACE[0..15] (R177). -/
def desFinalHeader (cmd : Word) (dec : Bool) (text key : BitVec 64) : List Word :=
  [cmd, hiWord key, loWord key, hiWord text, loWord text, loWord (desHalves key 0).1, loWord (desHalves key 0).2,
    (desPair dec text key 0).1, (desPair dec text key 0).2, (desPair dec text key 16).1, (desPair dec text key 16).2,
    hiWord (desBlock dec text key), loWord (desBlock dec text key), 0, 0, 0]

/-- Key-schedule record `i = 1..16` of a key (R178). -/
def desFinalKeyRecord (key : BitVec 64) (i : Nat) : List Word :=
  desKeyRecord i (desHalves key (i - 1)).1 (desHalves key (i - 1)).2 (desHalves key i).1 (desHalves key i).2
    (desSubkey key i)

/-- Round record `n = 1..16` of a text and a key (R179). -/
def desFinalRoundRecord (dec : Bool) (text key : BitVec 64) (n : Nat) : List Word :=
  desRoundRecord n (kidx dec n) (desPair dec text key (n - 1)).1 (desPair dec text key (n - 1)).2
    (desSubkey key (kidx dec n))

/-- The 400 words of a DES trace (R180). -/
def desTraceWords (cmd : Word) (dec : Bool) (text key : BitVec 64) : List Word :=
  desFinalHeader cmd dec text key ++
    (List.range 16).flatMap (fun i => desFinalKeyRecord key (i + 1)) ++
    (List.range 16).flatMap (fun n => desFinalRoundRecord dec text key (n + 1))

/-- The finished header of an AES trace, TRACE[0..15] (R267). -/
def aesFinalHeader (cmd : Word) (dec : Bool) (text key : Block) : List Word :=
  [cmd] ++ blockWords key ++ blockWords text ++ blockWords (aesState dec text key 10) ++ [0, 0, 0]

/-- Key-word record `i = 0..43` of a key (R268). -/
def aesFinalKeyRecord (key : Block) (i : Nat) : List Word :=
  aesKeyRecord i (aesWordAt key (i - 1)) (aesWordAt key i)

/-- Round record `n = 0..10` of a text and a key (R269 for DEC = 0, R270 for DEC = 1). -/
def aesFinalRoundRecord (dec : Bool) (text key : Block) (n : Nat) : List Word :=
  let rk := aesRoundKey key (roundKeyIndex dec n)
  match dec, n with
  | false, 0 => aesEncRecordZero text rk (aesState false text key 0)
  | true, 0 => aesDecRecordZero text rk (aesState true text key 0)
  | false, m + 1 => aesEncRecord (m + 1) (aesState false text key m) rk
  | true, m + 1 => aesDecRecord (m + 1) (aesState true text key m) rk

/-- The 720 words of an AES trace (R271). -/
def aesTraceWords (cmd : Word) (dec : Bool) (text key : Block) : List Word :=
  aesFinalHeader cmd dec text key ++
    (List.range 44).flatMap (fun i => aesFinalKeyRecord key i) ++
    (List.range 11).flatMap (fun n => aesFinalRoundRecord dec text key n)

end Sys2Proof.Machine
end

