-- ==== Sys2Proof/Safety.lean ====
section
/-! DEFINITION. The terms in which claims about AVCE are stated: when the operands of a command are valid, and the
invariants of its registers (10_state.md R23 to R39; 30_encoding.md R90). -/

namespace Sys2Proof.Machine

/-- "valid only if `TEXT_LEN = need` and every one of those characters is a hex digit; the key operand likewise from
KEY_BUF and KEY_LEN" (R90). -/
def OperandsValid (need : Nat) (a : Avce) : Prop :=
  a.textLen = BitVec.ofNat 32 need ∧ a.keyLen = BitVec.ofNat 32 need ∧
    ∀ i : Fin 32, i.val < need → isHex a.textBuf[i] = true ∧ isHex a.keyBuf[i] = true

/-- `i` is the least index below `need` whose character is no hex digit (R93 step 4, R106). -/
def FirstBadChar (buf : Vector Word Config.bufCap) (need : Nat) (i : Fin 32) : Prop :=
  i.val < need ∧ isHex buf[i] = false ∧ ∀ j : Fin 32, j.val < i.val → isHex buf[j] = true

/-- R39 (a) to (g), and with them "0 when CODE = 0" and "else 0" of R24. -/
structure FlagsInv (a : Avce) : Prop where
  /-- (a) -/
  busy_iff_sequenced : a.busy = true ↔ a.seq ≠ .idle
  /-- (b) -/
  busy_not_finished : a.busy = true → a.done = false ∧ a.ok = false
  /-- (c) -/
  ok_finished : a.ok = true → a.done = true ∧ errWord a.errinfo = 0
  /-- (d) -/
  failed_iff_code : (a.done = true ∧ a.ok = false) ↔ a.errinfo.code ≠ 0
  /-- (e) -/
  outLen_iff_ok : a.outLen ≠ 0 ↔ a.ok = true
  /-- (f) -/
  traceLen_only_traced : a.traceLen ≠ 0 → a.ok = true ∧ a.cmdr.trc = true
  /-- (g) -/
  busy_command : a.busy = true →
    a.cmdr.alg = (fieldsOf a.cmd).alg ∧ a.cmdr.dec = (fieldsOf a.cmd).dec ∧ a.cmdr.trc = (fieldsOf a.cmd).trc ∧
      (fieldsOf a.cmd).rsv = 0
  /-- R24: SUB and INDEX are 0 where there is no error. -/
  no_code_no_cause : a.errinfo.code = 0 → a.errinfo.sub = 0 ∧ a.errinfo.index = 0

/-- ERRINFO holds 0 or one of the values that R301 and R302 list. -/
def ErrinfoLegal (e : ErrInfo) : Prop :=
  errWord e = 0 ∨ errWord e = 0x11 ∨ errWord e = 0x31 ∨ errWord e = 0x15 ∨ errWord e = 0x25 ∨
    ∃ i : Nat, i < 32 ∧
      (errWord e = 0x21#32 ||| BitVec.ofNat 32 (i * 256) ∨ errWord e = 0x41#32 ||| BitVec.ofNat 32 (i * 256))

/-- What the result registers hold: nothing unless OK = 1, and then OUT_BUF is the hex string of the block in DOUT
(R27, R28). -/
structure ResultInv (a : Avce) : Prop where
  /-- before a result, and after an error, every result register is 0 -/
  empty_unless_ok : a.ok = false →
    a.outLen = 0 ∧ a.traceLen = 0 ∧ (∀ i : Fin 32, a.outBuf[i] = 0) ∧ ∀ i : Fin 4, a.dout[i] = 0
  /-- a result is that of a DES or of an AES command -/
  length_of_result : a.ok = true → (a.cmdr.alg = 1 ∧ a.outLen = 16) ∨ (a.cmdr.alg = 2 ∧ a.outLen = 32)
  /-- "At all times `OUT_BUF[0..OUT_LEN-1] = hexenc` of the block in DOUT"; what lies beyond is 0 -/
  des_digits : a.ok = true → a.cmdr.alg = 1 →
    a.dout[2] = 0 ∧ a.dout[3] = 0 ∧
      ∀ i : Fin 32, a.outBuf[i] = if i.val < 16 then hexEncAt (a.dout[0] ++ a.dout[1]) i.val else 0
  aes_digits : a.ok = true → a.cmdr.alg = 2 →
    ∀ i : Fin 32, a.outBuf[i] = hexEncAt (a.dout[0] ++ a.dout[1] ++ a.dout[2] ++ a.dout[3]) i.val
  /-- TRACE_LEN of a result: 0, or 400 (DES) or 720 (AES) of a traced command (R29) -/
  trace_length : a.ok = true →
    a.traceLen = if a.cmdr.trc = true then (if a.cmdr.alg = 1 then 400 else 720) else 0

/-- The subkey registers K[1..n] hold the first `n` subkeys of the latched key (R33). -/
def HasSubkeys (a : Avce) (n : Nat) : Prop := ∀ j : Fin 16, j.val < n → a.k[j] = desSubkey a.dkey (j.val + 1)

/-- The registers W[0..n-1] hold the first `n` words of the latched key's schedule (R35). -/
def HasWords (a : Avce) (n : Nat) : Prop := ∀ j : Fin 44, j.val < n → a.w[j] = aesWordAt a.akey j.val

/-- What the engine registers hold when the step that SEQ names is the next one (R32 to R35). -/
def PhaseInv (a : Avce) : Prop :=
  match a.seq with
  | .idle => True
  | .desPc1 => a.cmdr.alg = 1
  | .desKs r => a.cmdr.alg = 1 ∧ (a.c, a.d) = desHalves a.dkey r.val ∧ HasSubkeys a r.val
  | .desIp => a.cmdr.alg = 1 ∧ (a.c, a.d) = desHalves a.dkey 16 ∧ HasSubkeys a 16
  | .desRnd r =>
    a.cmdr.alg = 1 ∧ (a.c, a.d) = desHalves a.dkey 16 ∧ HasSubkeys a 16 ∧
      (a.l, a.r) = desPair a.cmdr.dec a.dtext a.dkey r.val
  | .desFp =>
    a.cmdr.alg = 1 ∧ (a.c, a.d) = desHalves a.dkey 16 ∧ HasSubkeys a 16 ∧
      (a.l, a.r) = desPair a.cmdr.dec a.dtext a.dkey 16
  | .aesKx i => a.cmdr.alg = 2 ∧ HasWords a i.val
  | .aesArk0 => a.cmdr.alg = 2 ∧ HasWords a 44
  | .aesRnd r => a.cmdr.alg = 2 ∧ HasWords a 44 ∧ a.st = aesState a.cmdr.dec a.atext a.akey r.val
  | .aesOut => a.cmdr.alg = 2 ∧ HasWords a 44 ∧ a.st = aesState a.cmdr.dec a.atext a.akey 10

/-- A published result is the block function of the latched operands (R161, R162, R230, R247). -/
def ResultCorrect (a : Avce) : Prop :=
  a.ok = true →
    (a.cmdr.alg = 1 ∧
      a.dout = #v[hiWord (desBlock a.cmdr.dec a.dtext a.dkey), loWord (desBlock a.cmdr.dec a.dtext a.dkey), 0, 0]) ∨
    (a.cmdr.alg = 2 ∧ a.dout.toList = blockWords (aesState a.cmdr.dec a.atext a.akey 10))

/-- The engine's registers follow the ciphers in every phase, and so does the result. -/
structure EngineInv (a : Avce) : Prop where
  phase : PhaseInv a
  result : ResultCorrect a

/-- What a DES command that has finished leaves (R171 to R174, R176; 10_state.md R32, R33), `a` being the registers
before its START, `T` and `KEY` its operands: the result everywhere it is published, the engine's registers at
their last values, and every other register as it was.  The trace is left out. -/
structure DesFinished (cmd : Word) (dec trc : Bool) (T KEY : BitVec 64) (a u : Avce) : Prop where
  dout : u.dout = #v[hiWord (desBlock dec T KEY), loWord (desBlock dec T KEY), 0, 0]
  outBuf : ∀ i : Fin 32, u.outBuf[i] = if i.val < 16 then hexEncAt (desBlock dec T KEY) i.val else 0
  outLen : u.outLen = 16
  status : statusWord u = 6
  errinfo : errWord u.errinfo = 0
  sequencer : u.seq = .idle
  command : u.cmd = cmd ∧ u.cmdr = ⟨1, dec, trc⟩ ∧ u.dtext = T ∧ u.dkey = KEY
  halves : (u.c, u.d) = desHalves KEY 16 ∧ (u.l, u.r) = desPair dec T KEY 16
  subkeys : ∀ j : Fin 16, u.k[j] = desSubkey KEY (j.val + 1)
  inputs : u.textLen = a.textLen ∧ u.keyLen = a.keyLen ∧ u.textBuf = a.textBuf ∧ u.keyBuf = a.keyBuf
  aesRegisters : u.akey = a.akey ∧ u.atext = a.atext ∧ u.st = a.st ∧ u.w = a.w

/-- What an AES command that has finished leaves (R261 to R264, R266; 10_state.md R34, R35). -/
structure AesFinished (cmd : Word) (dec trc : Bool) (T KEY : Block) (a u : Avce) : Prop where
  dout : u.dout.toList = blockWords (aesState dec T KEY 10)
  outBuf : ∀ i : Fin 32, u.outBuf[i] = hexEncAt (blockBits (aesState dec T KEY 10)) i.val
  outLen : u.outLen = 32
  status : statusWord u = 6
  errinfo : errWord u.errinfo = 0
  sequencer : u.seq = .idle
  command : u.cmd = cmd ∧ u.cmdr = ⟨2, dec, trc⟩ ∧ u.atext = T ∧ u.akey = KEY
  state : u.st = aesState dec T KEY 10
  words : ∀ j : Fin 44, u.w[j] = aesWordAt KEY j.val
  inputs : u.textLen = a.textLen ∧ u.keyLen = a.keyLen ∧ u.textBuf = a.textBuf ∧ u.keyBuf = a.keyBuf
  desRegisters : u.dkey = a.dkey ∧ u.dtext = a.dtext ∧ u.c = a.c ∧ u.d = a.d ∧ u.l = a.l ∧ u.r = a.r ∧ u.k = a.k

/-- The words `off, off+1, ...` of the trace memory are `ws` after a traced step, and every other word is as it was;
after a step of a direct command the whole memory is as it was (R29, R83). -/
def TraceWrites (a u : Avce) (off : Nat) (ws : List Word) : Prop :=
  (a.cmdr.trc = false → u.trace = a.trace) ∧
    (a.cmdr.trc = true → ∀ j, u.trace.readWord j =
      if off ≤ j ∧ j < off + ws.length then ws.getD (j - off) 0 else a.trace.readWord j)

/-- `need(ALG)` of a command (R88). -/
def needOf (i : Instr) : Nat := if i.fields.alg = 1 then 16 else 32

/-- The number of engine steps of a command (R175, R265). -/
def stepsOf (i : Instr) : Nat := if i.fields.alg = 1 then 35 else 56

/-- Two register states that present the same operands to a command: equal lengths, and equal characters below the
required length (R15). -/
def SameOperands (need : Nat) (a b : Avce) : Prop :=
  a.textLen = b.textLen ∧ a.keyLen = b.keyLen ∧
    ∀ i : Fin 32, i.val < need → a.textBuf[i] = b.textBuf[i] ∧ a.keyBuf[i] = b.keyBuf[i]

/-- Two register states that show the host the same outcome: STATUS, ERRINFO, the result and the visible trace. -/
def SameOutcome (a b : Avce) : Prop :=
  statusWord a = statusWord b ∧ errWord a.errinfo = errWord b.errinfo ∧ a.outLen = b.outLen ∧ a.outBuf = b.outBuf ∧
    a.dout = b.dout ∧ a.traceLen = b.traceLen ∧ ∀ j, gatedTrace a j = gatedTrace b j

/-- A character of a hex string with its letter turned to upper case (R103). -/
def upperCase (c : Word) : Word := if 0x61#32 ≤ c ∧ c ≤ 0x66#32 then c - 0x20#32 else c

/-- Two DES keys that agree but for the parity positions 8, 16, ..., 64 (R129). -/
def SameButParity (k k' : BitVec 64) : Prop :=
  ∀ i : Nat, i < 64 → i % 8 ≠ 7 → k.getMsbD i = k'.getMsbD i

/-- The register numbers that R51 lists as unmapped. -/
def UnmappedNo (n : RegNo) : Prop := (0x00C ≤ n.toNat ∧ n.toNat ≤ 0x01F) ∨ (0x080 ≤ n.toNat ∧ n.toNat ≤ 0x3FF)

/-- The register numbers of ID, STATUS, ERRINFO, OUT_LEN, TRACE_LEN, DOUT, OUT_BUF and TRACE (R54). -/
def ReadOnlyNo (n : RegNo) : Prop :=
  n.toNat = 0 ∨ n.toNat = 2 ∨ n.toNat = 3 ∨ n.toNat = 6 ∨ n.toNat = 7 ∨ (0x008 ≤ n.toNat ∧ n.toNat ≤ 0x00B) ∨
    (0x060 ≤ n.toNat ∧ n.toNat ≤ 0x07F) ∨ 0x400 ≤ n.toNat

/-- An event by which the host can disturb nothing while BUSY, or an engine step: all but POLL, which puts engine
steps of its own between its reads, and RESET. -/
def Event.isPlain : Event → Bool
  | .rd _ => true
  | .wr _ _ => true
  | .engine => true
  | .poll => false
  | .reset => false

/-- The number of engine steps among some events. -/
def countEngine (es : List Event) : Nat := es.countP (· == .engine)

end Sys2Proof.Machine
end

