-- ==== Sys2Proof/Certificates/Slice0/Obligations.lean ====
section
/-! DEFINITION. The statements for the provers.  Each docstring names the rule of spec/ that the statement
formalises. -/

open Sys2Proof Sys2Proof.Machine

/-! ### Encoding -/

/-- R85: the decoder reads a command from a word exactly when the word is that command's, and the eight words, with
their ALG, DEC and TRC, are those of the table; so every other word is illegal. -/
def Obligations.LegalWordsAreTheEightCommandWords : Prop :=
  (∀ (v : Word) (i : Instr), decode v = .command i ↔ v = encode i) ∧
    encode .desEnc = 0x00000001 ∧ encode .desDec = 0x00000011 ∧ encode .desEncT = 0x00000021 ∧
    encode .desDecT = 0x00000031 ∧ encode .aesEnc = 0x00000002 ∧ encode .aesDec = 0x00000012 ∧
    encode .aesEncT = 0x00000022 ∧ encode .aesDecT = 0x00000032 ∧
    fieldsOf (encode .desEnc) = ⟨1, false, false, 0⟩ ∧ fieldsOf (encode .desDec) = ⟨1, true, false, 0⟩ ∧
    fieldsOf (encode .desEncT) = ⟨1, false, true, 0⟩ ∧ fieldsOf (encode .desDecT) = ⟨1, true, true, 0⟩ ∧
    fieldsOf (encode .aesEnc) = ⟨2, false, false, 0⟩ ∧ fieldsOf (encode .aesDec) = ⟨2, true, false, 0⟩ ∧
    fieldsOf (encode .aesEncT) = ⟨2, false, true, 0⟩ ∧ fieldsOf (encode .aesDecT) = ⟨2, true, true, 0⟩

/-- The opcode-table words of R85, and some of the words R87 rejects. -/
def Obligations.OpcodeTableWordsDecode : Prop :=
  decodeTableWord 32 0x00000001 = some .desEnc ∧ decodeTableWord 32 0x00000011 = some .desDec ∧
    decodeTableWord 32 0x00000021 = some .desEncT ∧ decodeTableWord 32 0x00000031 = some .desDecT ∧
    decodeTableWord 32 0x00000002 = some .aesEnc ∧ decodeTableWord 32 0x00000012 = some .aesDec ∧
    decodeTableWord 32 0x00000022 = some .aesEncT ∧ decodeTableWord 32 0x00000032 = some .aesDecT ∧
    decodeTableWord 32 0x00000000 = none ∧ decodeTableWord 32 0x00000003 = none ∧
    decodeTableWord 32 0x00000041 = none ∧ decodeTableWord 32 0x80000002 = none

/-! ### The hex front end -/

/-- R100 and R101: `ishex` holds of the 22 codes and of no other 32-bit value, and `hexval` of each code. -/
def Obligations.HexDigitCodesAndValues : Prop :=
  (∀ c : Word, isHex c = true ↔
    (0x30 ≤ c.toNat ∧ c.toNat ≤ 0x39) ∨ (0x41 ≤ c.toNat ∧ c.toNat ≤ 0x46) ∨ (0x61 ≤ c.toNat ∧ c.toNat ≤ 0x66)) ∧
  (∀ c : Word, 0x30 ≤ c.toNat ∧ c.toNat ≤ 0x39 → (hexVal c).toNat = c.toNat - 0x30) ∧
  (∀ c : Word, 0x41 ≤ c.toNat ∧ c.toNat ≤ 0x46 → (hexVal c).toNat = c.toNat - 0x41 + 10) ∧
  (∀ c : Word, 0x61 ≤ c.toNat ∧ c.toNat ≤ 0x66 → (hexVal c).toNat = c.toNat - 0x61 + 10)

/-- R102: digit `i` of a string of `m` characters gives bits `4i+1..4i+4` of the `4m` bits, the first character the
most significant four; with the rule's two examples. -/
def Obligations.HexDecPlacesEveryDigit : Prop :=
  (∀ (cs : List Word) (i : Nat) (h : i < cs.length),
    slice (hexDec (4 * cs.length) cs) (4 * i + 1) 4 = hexVal cs[i]) ∧
  hexDec 8 [0x31, 0x46] = 0b00011111#8 ∧
  hexDec 64 [0x30, 0x31, 0x32, 0x33, 0x34, 0x35, 0x36, 0x37, 0x38, 0x39, 0x41, 0x42, 0x43, 0x44, 0x45, 0x46] =
    0x0123456789ABCDEF#64

/-- For the two widths AVCE uses: `hexdec(hexenc(B)) = B`, and `hexenc(hexdec(c))` is `c` with its letters turned to
upper case.  The sentence stands in 40_primitives.md R103, marked there as the spec's inference from R101 and R102. -/
def Obligations.HexEncInvertsHexDec : Prop :=
  (∀ B : BitVec 64, hexDec 64 (hexEnc B) = B) ∧ (∀ B : BitVec 128, hexDec 128 (hexEnc B) = B) ∧
  (∀ cs : List Word, cs.length = 16 → (∀ c ∈ cs, isHex c = true) → hexEnc (hexDec 64 cs) = cs.map upperCase) ∧
  (∀ cs : List Word, cs.length = 32 → (∀ c ∈ cs, isHex c = true) → hexEnc (hexDec 128 cs) = cs.map upperCase)

/-! ### START -/

/-- R170 with R93: the START of DES.ENC, DES.DEC, DES.ENC.T and DES.DEC.T on valid operands, every field of the state
it leaves. -/
def Obligations.DesStartLatchesAndGoesBusy : Prop :=
  ∀ (i : Instr) (s : State),
    i = .desEnc ∨ i = .desDec ∨ i = .desEncT ∨ i = .desDecT →
    s.avce.busy = false → OperandsValid 16 s.avce →
    exec i s = .next { s with avce := { s.avce with
      cmd := encode i
      busy := true
      done := false
      ok := false
      errinfo := ⟨0, 0, 0⟩
      outLen := 0
      outBuf := Vector.replicate 32 0
      dout := Vector.replicate 4 0
      traceLen := 0
      cmdr := ⟨1, i.fields.dec, i.fields.trc⟩
      dtext := desOperand s.avce.textBuf
      dkey := desOperand s.avce.keyBuf
      seq := .desPc1 } }

/-- R260 with R93: the START of AES.ENC, AES.DEC, AES.ENC.T and AES.DEC.T on valid operands, every field of the state
it leaves. -/
def Obligations.AesStartLatchesAndGoesBusy : Prop :=
  ∀ (i : Instr) (s : State),
    i = .aesEnc ∨ i = .aesDec ∨ i = .aesEncT ∨ i = .aesDecT →
    s.avce.busy = false → OperandsValid 32 s.avce →
    exec i s = .next { s with avce := { s.avce with
      cmd := encode i
      busy := true
      done := false
      ok := false
      errinfo := ⟨0, 0, 0⟩
      outLen := 0
      outBuf := Vector.replicate 32 0
      dout := Vector.replicate 4 0
      traceLen := 0
      cmdr := ⟨2, i.fields.dec, i.fields.trc⟩
      atext := aesOperand s.avce.textBuf
      akey := aesOperand s.avce.keyBuf
      seq := .aesKx 0 } }

/-- R301: the FormatError of any of the eight commands, with ERRINFO as the rule's table gives it. -/
def Obligations.FormatErrorNamesTheFailedCheck : Prop :=
  ∀ (i : Instr) (s : State), s.avce.busy = false →
    ∃ t, exec i s = .next t ∧
      (s.avce.textLen ≠ BitVec.ofNat 32 (needOf i) →
        statusWord t.avce = 2 ∧ errWord t.avce.errinfo = 0x11) ∧
      (∀ j : Fin 32, s.avce.textLen = BitVec.ofNat 32 (needOf i) → FirstBadChar s.avce.textBuf (needOf i) j →
        statusWord t.avce = 2 ∧ errWord t.avce.errinfo = 0x21#32 ||| (BitVec.ofNat 32 j.val <<< 8)) ∧
      (s.avce.textLen = BitVec.ofNat 32 (needOf i) →
        (∀ j : Fin 32, j.val < needOf i → isHex s.avce.textBuf[j] = true) →
        s.avce.keyLen ≠ BitVec.ofNat 32 (needOf i) →
        statusWord t.avce = 2 ∧ errWord t.avce.errinfo = 0x31) ∧
      (∀ j : Fin 32, s.avce.textLen = BitVec.ofNat 32 (needOf i) →
        (∀ k : Fin 32, k.val < needOf i → isHex s.avce.textBuf[k] = true) →
        s.avce.keyLen = BitVec.ofNat 32 (needOf i) → FirstBadChar s.avce.keyBuf (needOf i) j →
        statusWord t.avce = 2 ∧ errWord t.avce.errinfo = 0x41#32 ||| (BitVec.ofNat 32 j.val <<< 8))

/-- R302 and R305: the one error that a write of any word to CMD reports is the first of the rule's six causes, in the
rule's order; with none of them ERRINFO is 0. -/
def Obligations.StartReportsTheFirstCause : Prop :=
  ∀ (v : Word) (s : State), s.avce.busy = false →
    ∃ t, hostWrite cmdRegNo v s = .next t ∧
      errWord t.avce.errinfo =
        (if v.toNat % 16 ≠ 1 ∧ v.toNat % 16 ≠ 2 then 0x15
        else if v.toNat / 64 ≠ 0 then 0x25
        else
          match check s.avce.textBuf s.avce.textLen (if v.toNat % 16 = 1 then 16 else 32) with
          | .length => 0x11
          | .charset j => 0x21#32 ||| (BitVec.ofNat 32 j <<< 8)
          | .pass =>
            match check s.avce.keyBuf s.avce.keyLen (if v.toNat % 16 = 1 then 16 else 32) with
            | .length => 0x31
            | .charset j => 0x41#32 ||| (BitVec.ofNat 32 j <<< 8)
            | .pass => 0)

/-- R306: the state that a START with an error leaves, whatever the written word: CMD, STATUS = 2, ERRINFO, the result
registers 0, everything else as before; and ERRINFO is CODE, SUB and INDEX in their places. -/
def Obligations.ErrorEntryLeavesExactlyThis : Prop :=
  ∀ (v : Word) (s t : State), s.avce.busy = false → hostWrite cmdRegNo v s = .next t →
    t.avce.errinfo.code ≠ 0 →
    statusWord t.avce = 2 ∧
    (errWord t.avce.errinfo).toNat =
      t.avce.errinfo.code.toNat + t.avce.errinfo.sub.toNat * 16 + t.avce.errinfo.index.toNat * 256 ∧
    t = { s with avce := { s.avce with
      cmd := v
      done := true
      ok := false
      errinfo := t.avce.errinfo
      outLen := 0
      outBuf := Vector.replicate 32 0
      dout := Vector.replicate 4 0
      traceLen := 0 } }

/-- R57 and R94: while BUSY every host write is ignored, and so is every command. -/
def Obligations.WritesWhileBusyAreIgnored : Prop :=
  (∀ (n : RegNo) (v : Word) (s : State), s.avce.busy = true → hostWrite n v s = .next s) ∧
    ∀ (i : Instr) (s : State), s.avce.busy = true → exec i s = .next s

/-- The last sentence of R93: a START, passing or not, changes no engine register, no TRACE word and no input register;
and every command answers a next state. -/
def Obligations.StartLeavesEngineTraceAndInputs : Prop :=
  ∀ (i : Instr) (s : State), ∃ t, exec i s = .next t ∧
    t.schedule = s.schedule ∧ t.rdata = s.rdata ∧
    t.avce.c = s.avce.c ∧ t.avce.d = s.avce.d ∧ t.avce.l = s.avce.l ∧ t.avce.r = s.avce.r ∧ t.avce.k = s.avce.k ∧
    t.avce.st = s.avce.st ∧ t.avce.w = s.avce.w ∧ t.avce.trace = s.avce.trace ∧
    t.avce.textBuf = s.avce.textBuf ∧ t.avce.keyBuf = s.avce.keyBuf ∧
    t.avce.textLen = s.avce.textLen ∧ t.avce.keyLen = s.avce.keyLen

/-! ### What each command computes -/

/-- DES.ENC (R171): on valid operands it starts, is BUSY for 35 engine steps, and ends with `DES_E(text, key)`; it
writes no TRACE word. -/
def Obligations.DesEncEncrypts : Prop :=
  ∀ s : State, s.avce.busy = false → OperandsValid 16 s.avce →
    ∃ t, exec .desEnc s = .next t ∧ (∀ k, k < 35 → statusWord (engineSteps k t.avce) = 1) ∧
      DesFinished 0x00000001 false false (desOperand s.avce.textBuf) (desOperand s.avce.keyBuf) s.avce
        (engineSteps 35 t.avce) ∧
      (engineSteps 35 t.avce).traceLen = 0 ∧ (engineSteps 35 t.avce).trace = s.avce.trace

/-- DES.DEC (R172): the same with `DES_D(text, key)`. -/
def Obligations.DesDecDecrypts : Prop :=
  ∀ s : State, s.avce.busy = false → OperandsValid 16 s.avce →
    ∃ t, exec .desDec s = .next t ∧ (∀ k, k < 35 → statusWord (engineSteps k t.avce) = 1) ∧
      DesFinished 0x00000011 true false (desOperand s.avce.textBuf) (desOperand s.avce.keyBuf) s.avce
        (engineSteps 35 t.avce) ∧
      (engineSteps 35 t.avce).traceLen = 0 ∧ (engineSteps 35 t.avce).trace = s.avce.trace

/-- DES.ENC.T (R173): as DES.ENC, with TRACE_LEN = 400 at the end. -/
def Obligations.DesEncTracedEncrypts : Prop :=
  ∀ s : State, s.avce.busy = false → OperandsValid 16 s.avce →
    ∃ t, exec .desEncT s = .next t ∧ (∀ k, k < 35 → statusWord (engineSteps k t.avce) = 1) ∧
      DesFinished 0x00000021 false true (desOperand s.avce.textBuf) (desOperand s.avce.keyBuf) s.avce
        (engineSteps 35 t.avce) ∧
      (engineSteps 35 t.avce).traceLen = 400

/-- DES.DEC.T (R174): as DES.DEC, with TRACE_LEN = 400 at the end. -/
def Obligations.DesDecTracedDecrypts : Prop :=
  ∀ s : State, s.avce.busy = false → OperandsValid 16 s.avce →
    ∃ t, exec .desDecT s = .next t ∧ (∀ k, k < 35 → statusWord (engineSteps k t.avce) = 1) ∧
      DesFinished 0x00000031 true true (desOperand s.avce.textBuf) (desOperand s.avce.keyBuf) s.avce
        (engineSteps 35 t.avce) ∧
      (engineSteps 35 t.avce).traceLen = 400

/-- AES.ENC (R261): on valid operands it starts, is BUSY for 56 engine steps, and ends with `AES_E(text, key)`; it
writes no TRACE word. -/
def Obligations.AesEncEncrypts : Prop :=
  ∀ s : State, s.avce.busy = false → OperandsValid 32 s.avce →
    ∃ t, exec .aesEnc s = .next t ∧ (∀ k, k < 56 → statusWord (engineSteps k t.avce) = 1) ∧
      AesFinished 0x00000002 false false (aesOperand s.avce.textBuf) (aesOperand s.avce.keyBuf) s.avce
        (engineSteps 56 t.avce) ∧
      (engineSteps 56 t.avce).traceLen = 0 ∧ (engineSteps 56 t.avce).trace = s.avce.trace

/-- AES.DEC (R262): the same with `AES_D(text, key)`. -/
def Obligations.AesDecDecrypts : Prop :=
  ∀ s : State, s.avce.busy = false → OperandsValid 32 s.avce →
    ∃ t, exec .aesDec s = .next t ∧ (∀ k, k < 56 → statusWord (engineSteps k t.avce) = 1) ∧
      AesFinished 0x00000012 true false (aesOperand s.avce.textBuf) (aesOperand s.avce.keyBuf) s.avce
        (engineSteps 56 t.avce) ∧
      (engineSteps 56 t.avce).traceLen = 0 ∧ (engineSteps 56 t.avce).trace = s.avce.trace

/-- AES.ENC.T (R263): as AES.ENC, with TRACE_LEN = 720 at the end. -/
def Obligations.AesEncTracedEncrypts : Prop :=
  ∀ s : State, s.avce.busy = false → OperandsValid 32 s.avce →
    ∃ t, exec .aesEncT s = .next t ∧ (∀ k, k < 56 → statusWord (engineSteps k t.avce) = 1) ∧
      AesFinished 0x00000022 false true (aesOperand s.avce.textBuf) (aesOperand s.avce.keyBuf) s.avce
        (engineSteps 56 t.avce) ∧
      (engineSteps 56 t.avce).traceLen = 720

/-- AES.DEC.T (R264): as AES.DEC, with TRACE_LEN = 720 at the end. -/
def Obligations.AesDecTracedDecrypts : Prop :=
  ∀ s : State, s.avce.busy = false → OperandsValid 32 s.avce →
    ∃ t, exec .aesDecT s = .next t ∧ (∀ k, k < 56 → statusWord (engineSteps k t.avce) = 1) ∧
      AesFinished 0x00000032 true true (aesOperand s.avce.textBuf) (aesOperand s.avce.keyBuf) s.avce
        (engineSteps 56 t.avce) ∧
      (engineSteps 56 t.avce).traceLen = 720

/-- R177 to R179: the 400 words that DES.ENC.T and DES.DEC.T leave, and that no word beyond them is written
(43_des_commands.md R180, whose last sentence is marked there as the spec's inference). -/
def Obligations.DesTraceHoldsEveryRecord : Prop :=
  ∀ (i : Instr) (s : State), i = .desEncT ∨ i = .desDecT → s.avce.busy = false → OperandsValid 16 s.avce →
    ∃ t, exec i s = .next t ∧ (engineSteps 35 t.avce).traceLen = 400 ∧
      (∀ j, j < 400 → (engineSteps 35 t.avce).trace.readWord j =
        (desTraceWords (encode i) i.fields.dec (desOperand s.avce.textBuf) (desOperand s.avce.keyBuf)).getD j 0) ∧
      ∀ j, 400 ≤ j → (engineSteps 35 t.avce).trace.readWord j = s.avce.trace.readWord j

/-- R267 to R270: the 720 words that AES.ENC.T and AES.DEC.T leave, and that no word beyond them is written
(47_aes_commands.md R271, whose last sentence is marked there as the spec's inference). -/
def Obligations.AesTraceHoldsEveryRecord : Prop :=
  ∀ (i : Instr) (s : State), i = .aesEncT ∨ i = .aesDecT → s.avce.busy = false → OperandsValid 32 s.avce →
    ∃ t, exec i s = .next t ∧ (engineSteps 56 t.avce).traceLen = 720 ∧
      (∀ j, j < 720 → (engineSteps 56 t.avce).trace.readWord j =
        (aesTraceWords (encode i) i.fields.dec (aesOperand s.avce.textBuf) (aesOperand s.avce.keyBuf)).getD j 0) ∧
      ∀ j, 720 ≤ j → (engineSteps 56 t.avce).trace.readWord j = s.avce.trace.readWord j

/-- R181 and R272: a traced command leaves DOUT, OUT_BUF, OUT_LEN, STATUS and ERRINFO as the direct one does, and the
output words of the trace header equal DOUT. -/
def Obligations.TracedAndDirectAgree : Prop :=
  (∀ (dec : Bool) (s : State), s.avce.busy = false → OperandsValid 16 s.avce →
    ∃ t t', exec (commandOf false dec false) s = .next t ∧ exec (commandOf false dec true) s = .next t' ∧
      (engineSteps 35 t'.avce).dout = (engineSteps 35 t.avce).dout ∧
      (engineSteps 35 t'.avce).outBuf = (engineSteps 35 t.avce).outBuf ∧
      (engineSteps 35 t'.avce).outLen = (engineSteps 35 t.avce).outLen ∧
      statusWord (engineSteps 35 t'.avce) = statusWord (engineSteps 35 t.avce) ∧
      errWord (engineSteps 35 t'.avce).errinfo = errWord (engineSteps 35 t.avce).errinfo ∧
      (engineSteps 35 t'.avce).trace.readWord 11 = (engineSteps 35 t'.avce).dout[0] ∧
      (engineSteps 35 t'.avce).trace.readWord 12 = (engineSteps 35 t'.avce).dout[1]) ∧
  (∀ (dec : Bool) (s : State), s.avce.busy = false → OperandsValid 32 s.avce →
    ∃ t t', exec (commandOf true dec false) s = .next t ∧ exec (commandOf true dec true) s = .next t' ∧
      (engineSteps 56 t'.avce).dout = (engineSteps 56 t.avce).dout ∧
      (engineSteps 56 t'.avce).outBuf = (engineSteps 56 t.avce).outBuf ∧
      (engineSteps 56 t'.avce).outLen = (engineSteps 56 t.avce).outLen ∧
      statusWord (engineSteps 56 t'.avce) = statusWord (engineSteps 56 t.avce) ∧
      errWord (engineSteps 56 t'.avce).errinfo = errWord (engineSteps 56 t.avce).errinfo ∧
      ∀ c : Fin 4, (engineSteps 56 t'.avce).trace.readWord (9 + c.val) = (engineSteps 56 t'.avce).dout[c])

/-- What the host sees of any command when it has finished, valid or not, depends on the command and on the
operands alone: two machines that are not BUSY and hold the same lengths and the same characters below the
required length end alike, whatever else their registers and their trace memories hold.  The sentences stand in
00_scope.md R15, whose last one is marked there as the spec's inference from R175 and R265. -/
def Obligations.OutcomeDependsOnOperandsOnly : Prop :=
  ∀ (i : Instr) (s s' : State), s.avce.busy = false → s'.avce.busy = false →
    SameOperands (needOf i) s.avce s'.avce →
    ∃ t t', exec i s = .next t ∧ exec i s' = .next t' ∧
      SameOutcome (engineSteps (stepsOf i) t.avce) (engineSteps (stepsOf i) t'.avce)

/-! ### The engine steps, one by one -/

/-- Steps DES_PC1 (R130) and DES_IP (R164). -/
def Obligations.DesKeyAndTextPermutationSteps : Prop :=
  (∀ a : Avce, a.busy = true → a.seq = .desPc1 →
    (engineStep a).c ++ (engineStep a).d = perm 56 pc1Table a.dkey ∧ (engineStep a).seq = .desKs 0 ∧
    TraceWrites a (engineStep a) 0
      [a.cmd, hiWord a.dkey, loWord a.dkey, hiWord a.dtext, loWord a.dtext, loWord (engineStep a).c,
        loWord (engineStep a).d, 0, 0, 0, 0, 0, 0, 0, 0, 0] ∧
    engineStep a = { a with c := (engineStep a).c, d := (engineStep a).d, seq := (engineStep a).seq,
                            trace := (engineStep a).trace }) ∧
  (∀ a : Avce, a.busy = true → a.seq = .desIp →
    (engineStep a).l ++ (engineStep a).r = perm 64 ipTable a.dtext ∧ (engineStep a).seq = .desRnd 0 ∧
    TraceWrites a (engineStep a) 7 [(engineStep a).l, (engineStep a).r] ∧
    engineStep a = { a with l := (engineStep a).l, r := (engineStep a).r, seq := (engineStep a).seq,
                            trace := (engineStep a).trace })

/-- Step (DES_KS, i) (R131), `i = r + 1`, with the eight words of its record. -/
def Obligations.DesKeyScheduleStep : Prop :=
  ∀ (r : Fin 16) (a : Avce), a.busy = true → a.seq = .desKs r →
    (engineStep a).c = rotl a.c (shiftAmount (r.val + 1)) ∧ (engineStep a).d = rotl a.d (shiftAmount (r.val + 1)) ∧
    (∀ j : Fin 16, (engineStep a).k[j] =
      if j = r then perm 48 pc2Table ((engineStep a).c ++ (engineStep a).d) else a.k[j]) ∧
    (engineStep a).seq = (if h : r.val + 1 < 16 then .desKs ⟨r.val + 1, h⟩ else .desIp) ∧
    TraceWrites a (engineStep a) (16 + 8 * r.val)
      [loWord a.c, loWord a.d, loWord (engineStep a).c, loWord (engineStep a).d, hiWord (engineStep a).k[r],
        loWord (engineStep a).k[r], BitVec.ofNat 32 (shiftAmount (r.val + 1)), BitVec.ofNat 32 (r.val + 1)] ∧
    engineStep a = { a with c := (engineStep a).c, d := (engineStep a).d, k := (engineStep a).k,
                            seq := (engineStep a).seq, trace := (engineStep a).trace }

/-- Step (DES_RND, n) (R165), `n = r + 1`: the subkey is K[n] or K[17-n], rounds 1 to 15 swap and round 16 does not,
and the sixteen words of the record. -/
def Obligations.DesRoundStep : Prop :=
  ∀ (r : Fin 16) (a : Avce) (k ER X : BitVec 48) (SOUT POUT LXF : BitVec 32), a.busy = true → a.seq = .desRnd r →
    k = (if a.cmdr.dec = true then a.k[15 - r.val]'(by omega) else a.k[r.val]) →
    ER = perm 48 eTable a.r → X = ER ^^^ k → SOUT = sboxes X → POUT = perm 32 pTable SOUT → LXF = a.l ^^^ POUT →
    ((engineStep a).l, (engineStep a).r) = (if r.val + 1 < 16 then (a.r, LXF) else (LXF, a.r)) ∧
    (engineStep a).seq = (if h : r.val + 1 < 16 then .desRnd ⟨r.val + 1, h⟩ else .desFp) ∧
    TraceWrites a (engineStep a) (144 + 16 * r.val)
      [BitVec.ofNat 32 (r.val + 1), BitVec.ofNat 32 (if a.cmdr.dec = true then 16 - r.val else r.val + 1), a.l, a.r,
        hiWord k, loWord k, hiWord ER, loWord ER, hiWord X, loWord X, SOUT, POUT, LXF, (engineStep a).l,
        (engineStep a).r, if r.val + 1 < 16 then 1 else 0] ∧
    engineStep a = { a with l := (engineStep a).l, r := (engineStep a).r, seq := (engineStep a).seq,
                            trace := (engineStep a).trace }

/-- Step DES_FP (R166) and the completion of a DES command (R176). -/
def Obligations.DesFinalStepPublishes : Prop :=
  ∀ (a : Avce) (OUT : BitVec 64), a.busy = true → a.seq = .desFp → OUT = perm 64 fpTable (a.l ++ a.r) →
    TraceWrites a (engineStep a) 9 [a.l, a.r, hiWord OUT, loWord OUT] ∧
    (∀ i : Fin 32, (engineStep a).outBuf[i] = if i.val < 16 then hexEncAt OUT i.val else a.outBuf[i]) ∧
    engineStep a = { a with
      dout := #v[hiWord OUT, loWord OUT, 0, 0]
      outBuf := (engineStep a).outBuf
      outLen := 16
      traceLen := if a.cmdr.trc = true then 400 else 0
      done := true
      ok := true
      busy := false
      seq := .idle
      trace := (engineStep a).trace }

/-- Step (AES_KX, i) (R209): the key word, by R201, R206 or R207, and the words of its record; step (AES_KX, 0) writes
the header too. -/
def Obligations.AesKeyExpansionStep : Prop :=
  ∀ (i : Fin 44) (a : Avce), a.busy = true → a.seq = .aesKx i →
    (∀ h : i.val < 4, (engineStep a).w[i] =
      #v[a.akey[4 * i.val], a.akey[4 * i.val + 1], a.akey[4 * i.val + 2], a.akey[4 * i.val + 3]]) ∧
    (4 ≤ i.val → i.val % 4 = 0 → ∀ (ROT SUB RCX : AesWord), ROT = rotWord (a.w[i.val - 1]) → SUB = subWord ROT →
      RCX = #v[SUB[0] ^^^ rcon (i.val / 4 - 1), SUB[1], SUB[2], SUB[3]] →
      (engineStep a).w[i] = xorWord RCX (a.w[i.val - 4]) ∧
      TraceWrites a (engineStep a) (16 + 8 * i.val)
        [BitVec.ofNat 32 i.val, 1, wordBits ROT, wordBits SUB, wordBits RCX, wordBits #v[rcon (i.val / 4 - 1), 0, 0, 0],
          wordBits (engineStep a).w[i], 0]) ∧
    (i.val % 4 ≠ 0 → 4 ≤ i.val → (engineStep a).w[i] = xorWord (a.w[i.val - 1]) (a.w[i.val - 4])) ∧
    (i.val % 4 ≠ 0 → TraceWrites a (engineStep a) (16 + 8 * i.val)
      [BitVec.ofNat 32 i.val, 0, 0, 0, 0, 0, wordBits (engineStep a).w[i], 0]) ∧
    (i.val = 0 → TraceWrites a (engineStep a) 0
      ([a.cmd] ++ blockWords a.akey ++ blockWords a.atext ++ [0, 0, 0, 0, 0, 0, 0] ++
        [0, 0, 0, 0, 0, 0, wordBits (engineStep a).w[i], 0])) ∧
    (∀ j : Fin 44, j ≠ i → (engineStep a).w[j] = a.w[j]) ∧
    (engineStep a).seq = (if h : i.val + 1 < 44 then .aesKx ⟨i.val + 1, h⟩ else .aesArk0) ∧
    engineStep a = { a with w := (engineStep a).w, seq := (engineStep a).seq, trace := (engineStep a).trace }

/-- Step AES_ARK0 (R231 for DEC = 0, R250 for DEC = 1), with round record 0. -/
def Obligations.AesInitialKeyStep : Prop :=
  ∀ (a : Avce) (RK : Block), a.busy = true → a.seq = .aesArk0 →
    RK = (if a.cmdr.dec = true then joinWords #v[a.w[40], a.w[41], a.w[42], a.w[43]]
      else joinWords #v[a.w[0], a.w[1], a.w[2], a.w[3]]) →
    (engineStep a).st = xorBlock a.atext RK ∧ (engineStep a).seq = .aesRnd 0 ∧
    (a.cmdr.dec = false → TraceWrites a (engineStep a) 368
      ([0, 0, 0, 0] ++ blockWords a.atext ++ absent ++ absent ++ absent ++ blockWords RK ++
        blockWords (engineStep a).st ++ blockWords (engineStep a).st)) ∧
    (a.cmdr.dec = true → TraceWrites a (engineStep a) 368
      ([0, 10, 0, 0] ++ blockWords a.atext ++ absent ++ absent ++ blockWords RK ++ blockWords (engineStep a).st ++
        absent ++ blockWords (engineStep a).st)) ∧
    engineStep a = { a with st := (engineStep a).st, seq := (engineStep a).seq, trace := (engineStep a).trace }

/-- Step (AES_RND, n) when CMDR.DEC = 0 (R232), `n = r + 1`, with its round record. -/
def Obligations.AesEncryptionRoundStep : Prop :=
  ∀ (r : Fin 10) (a : Avce) (A B RK : Block), a.busy = true → a.seq = .aesRnd r → a.cmdr.dec = false →
    A = subBytes a.st → B = shiftRows A →
    RK = joinWords #v[a.w[4 * (r.val + 1)]'(by omega), a.w[4 * (r.val + 1) + 1]'(by omega),
      a.w[4 * (r.val + 1) + 2]'(by omega), a.w[4 * (r.val + 1) + 3]'(by omega)] →
    (engineStep a).st = xorBlock (if r.val + 1 < 10 then mixColumns B else B) RK ∧
    (engineStep a).seq = (if h : r.val + 1 < 10 then .aesRnd ⟨r.val + 1, h⟩ else .aesOut) ∧
    TraceWrites a (engineStep a) (368 + 32 * (r.val + 1))
      ([BitVec.ofNat 32 (r.val + 1), BitVec.ofNat 32 (r.val + 1), 1, if r.val + 1 < 10 then 1 else 0] ++
        blockWords a.st ++ blockWords A ++ blockWords B ++
        (if r.val + 1 < 10 then blockWords (mixColumns B) else [0, 0, 0, 0]) ++ blockWords RK ++
        blockWords (engineStep a).st ++ blockWords (engineStep a).st) ∧
    engineStep a = { a with st := (engineStep a).st, seq := (engineStep a).seq, trace := (engineStep a).trace }

/-- Step (AES_RND, n) when CMDR.DEC = 1 (R251), `n = r + 1`, with its round record: round key `10 - n`, added before
InvMixColumns. -/
def Obligations.AesDecryptionRoundStep : Prop :=
  ∀ (r : Fin 10) (a : Avce) (A B RK C : Block), a.busy = true → a.seq = .aesRnd r → a.cmdr.dec = true →
    A = invShiftRows a.st → B = invSubBytes A →
    RK = joinWords #v[a.w[4 * (9 - r.val)]'(by omega), a.w[4 * (9 - r.val) + 1]'(by omega),
      a.w[4 * (9 - r.val) + 2]'(by omega), a.w[4 * (9 - r.val) + 3]'(by omega)] →
    C = xorBlock B RK →
    (engineStep a).st = (if r.val + 1 < 10 then invMixColumns C else C) ∧
    (engineStep a).seq = (if h : r.val + 1 < 10 then .aesRnd ⟨r.val + 1, h⟩ else .aesOut) ∧
    TraceWrites a (engineStep a) (368 + 32 * (r.val + 1))
      ([BitVec.ofNat 32 (r.val + 1), BitVec.ofNat 32 (9 - r.val), 1, if r.val + 1 < 10 then 1 else 0] ++
        blockWords a.st ++ blockWords A ++ blockWords B ++ blockWords RK ++ blockWords C ++
        (if r.val + 1 < 10 then blockWords (invMixColumns C) else [0, 0, 0, 0]) ++
        blockWords (engineStep a).st) ∧
    engineStep a = { a with st := (engineStep a).st, seq := (engineStep a).seq, trace := (engineStep a).trace }

/-- Step AES_OUT, the completion of an AES command (R266). -/
def Obligations.AesFinalStepPublishes : Prop :=
  ∀ a : Avce, a.busy = true → a.seq = .aesOut →
    (∀ (c : Fin 4), (engineStep a).dout[c] =
      a.st[4 * c.val] ++ a.st[4 * c.val + 1] ++ a.st[4 * c.val + 2] ++ a.st[4 * c.val + 3]) ∧
    (∀ i : Fin 32, (engineStep a).outBuf[i] = hexEncAt (blockBits a.st) i.val) ∧
    TraceWrites a (engineStep a) 9
      [(engineStep a).dout[0], (engineStep a).dout[1], (engineStep a).dout[2], (engineStep a).dout[3]] ∧
    engineStep a = { a with
      dout := (engineStep a).dout
      outBuf := (engineStep a).outBuf
      outLen := 32
      traceLen := if a.cmdr.trc = true then 720 else 0
      done := true
      ok := true
      busy := false
      seq := .idle
      trace := (engineStep a).trace }

/-! ### Invariants

A step takes the next event of a list; that this list stands for the host is the model's choice (assumption log 1). -/

/-- The invariant of BUSY, SEQ, DONE, OK, ERRINFO, OUT_LEN, TRACE_LEN, CMDR and CMD, kept by every step from every state
that has it.  Its clauses are (a) to (g) of 10_state.md R39, marked there as the spec's inference from R93, R306,
R175 and R265, and R24's "0 when CODE = 0". -/
def Obligations.EveryStepKeepsTheFlags : Prop :=
  ∀ s t : State, FlagsInv s.avce → step s = .next t → FlagsInv t.avce

/-- R32 to R35 with R161, R162, R230 and R247: in every phase the engine registers hold what the ciphers prescribe, and
a published result is the block function of the latched operands; kept by every step from every state that has
it. -/
def Obligations.EveryStepKeepsTheCipherState : Prop :=
  ∀ s t : State, EngineInv s.avce → step s = .next t → EngineInv t.avce

/-- OUT_BUF is the hex string of the block in DOUT (10_state.md R28, "At all times", marked there as the spec's inference
from R176 and R266), the lengths are those of the command that has finished, and without a result every result
register is 0 (R27, R29); kept by every step from every state that has the three invariants. -/
def Obligations.EveryStepKeepsTheResult : Prop :=
  ∀ s t : State, FlagsInv s.avce → EngineInv s.avce → ResultInv s.avce → step s = .next t → ResultInv t.avce

/-- The trace memory keeps its canonical form: indices strictly rising and below 1024, no listed word 0.  The form is the
model's choice (assumption log 8); the 1024 words and their reset value 0 are R29's and R38's. -/
def Obligations.EveryStepKeepsTheTraceMemoryCanonical : Prop :=
  ∀ s t : State, s.avce.trace.wf → step s = .next t → t.avce.trace.wf

/-- ERRINFO never holds a value that R301 and R302 do not list (60_exceptions.md R303, "ERRINFO.CODE never holds 2, 3, 4
or 6 to 15", marked there as the spec's inference from R301, R302 and R306). -/
def Obligations.EveryStepKeepsErrinfoLegal : Prop :=
  ∀ s t : State, ErrinfoLegal s.avce.errinfo → step s = .next t → ErrinfoLegal t.avce.errinfo

/-- The reset state (R38, R331) has the five invariants.  The clauses of `FlagsInv`, `ResultInv` and `ErrinfoLegal` rest
on sentences the spec marks as its inferences (10_state.md R39 and R28, 60_exceptions.md R303); `trace.wf` is the
model's own canonical form of the trace memory, its choice (assumption log 8). -/
def Obligations.ResetHasEveryInvariant : Prop :=
  FlagsInv State.reset.avce ∧ EngineInv State.reset.avce ∧ ResultInv State.reset.avce ∧ State.reset.avce.trace.wf ∧
    ErrinfoLegal State.reset.avce.errinfo

/-- The only values STATUS takes are 0, 1, 2 and 6: a sentence of 10_state.md R23, marked there as the spec's inference
from R93, R306, R176 and R266. -/
def Obligations.StatusTakesFourValues : Prop :=
  ∀ a : Avce, FlagsInv a → statusWord a = 0 ∨ statusWord a = 1 ∨ statusWord a = 2 ∨ statusWord a = 6

/-- What each register reads while BUSY: the sentences of 20_memory.md R58, marked there as the spec's inference from
R93 and R59. -/
def Obligations.ReadsWhileBusyShowNoResult : Prop :=
  ∀ a : Avce, FlagsInv a → ResultInv a → a.busy = true →
    hostRead a 0x002 = 1 ∧ hostRead a 0x003 = 0 ∧ hostRead a 0x006 = 0 ∧ hostRead a 0x007 = 0 ∧
    (∀ i : Fin 4, hostRead a (BitVec.ofNat 11 (0x008 + i.val)) = 0) ∧
    (∀ i : Fin 32, hostRead a (BitVec.ofNat 11 (0x060 + i.val)) = 0) ∧
    (∀ i : Fin 1024, hostRead a (BitVec.ofNat 11 (0x400 + i.val)) = 0) ∧
    hostRead a 0x001 = a.cmd ∧ (fieldsOf a.cmd).alg = a.cmdr.alg ∧ (fieldsOf a.cmd).dec = a.cmdr.dec ∧
    (fieldsOf a.cmd).trc = a.cmdr.trc ∧ hostRead a 0x004 = a.textLen ∧ hostRead a 0x005 = a.keyLen ∧
    (∀ i : Fin 32, hostRead a (BitVec.ofNat 11 (0x020 + i.val)) = a.textBuf[i]) ∧
    ∀ i : Fin 32, hostRead a (BitVec.ofNat 11 (0x040 + i.val)) = a.keyBuf[i]

/-! ### The step, the host and the engine -/

/-- When the next event writes a command's word to CMD and AVCE is not BUSY, the step is that command's meaning on the
state without that event; and `withFetchWord` makes the very next step run a command, on any state.  That a list of
events to come stands for the host is the model's choice (assumption log 1 and 7). -/
def Obligations.StepRunsTheDecodedCommand : Prop :=
  (∀ (s : State) (v : Word) (i : Instr) (rest : List Event), s.schedule = .wr 0x001 v :: rest →
    decode v = .command i → s.avce.busy = false → step s = exec i { s with schedule := rest }) ∧
  (∀ (s : State) (i : Instr), step (s.withFetchWord 32 (encode i).toNat) = exec i s)

/-- R14, R55 and R96: what a step does with every other event: a read changes nothing but the word read, so two reads
with nothing between them return the same word; POLL reads STATUS, changes no register, and comes again after one
engine step if BUSY reads 1; RESET sets every register; an engine step is one step of the sequencer; with no event
left the engine takes its next step; and while BUSY = 0 an engine step leaves every register as it was (R14, R320).
Every step answers a next state.  That the events to come, accesses and engine steps in one list, stand for the
interleaving, and the one engine step between two reads of a POLL, are the model's choice (assumption log 1); that
RESET leaves the events to come and the word last read is too (assumption log 2). -/
def Obligations.StepTakesOneEvent : Prop :=
  (∀ (s : State) (n : RegNo) (rest : List Event), s.schedule = .rd n :: rest →
    step s = .next { avce := s.avce, schedule := rest, rdata := hostRead s.avce n }) ∧
  (∀ (s : State) (n : RegNo) (rest : List Event), s.schedule = .rd n :: .rd n :: rest →
    ∃ t u, step s = .next t ∧ step t = .next u ∧ u.rdata = t.rdata ∧ u.avce = s.avce) ∧
  (∀ (s : State) (n : RegNo) (v : Word) (rest : List Event), s.schedule = .wr n v :: rest →
    step s = hostWrite n v { s with schedule := rest }) ∧
  (∀ (s : State) (rest : List Event), s.schedule = .reset :: rest →
    step s = .next { avce := Avce.reset, schedule := rest, rdata := s.rdata }) ∧
  (∀ (s : State) (rest : List Event), s.schedule = .engine :: rest →
    step s = .next { avce := engineStep s.avce, schedule := rest, rdata := s.rdata }) ∧
  (∀ (s : State) (rest : List Event), s.schedule = .poll :: rest →
    step s = .next { avce := s.avce
                     schedule := if s.avce.busy = true then .engine :: .poll :: rest else rest
                     rdata := hostRead s.avce 0x002 } ∧
    ((hostRead s.avce 0x002).getLsbD 0 = true ↔ s.avce.busy = true)) ∧
  (∀ s : State, s.schedule = [] → step s = .next { s with avce := engineStep s.avce }) ∧
  (∀ a : Avce, a.busy = false → engineStep a = a) ∧
  (∀ s : State, ∃ t, step s = .next t)

/-- R57 and R63: up to and with the engine step that finishes the command, no interleaving of reads and writes with the
engine's steps changes what the engine computes: the registers are those after that many engine steps and nothing
else.  `e` is the last of the events, the one that may finish the command; all events come while BUSY.  That the
interleaving is a list of events is the model's choice (assumption log 1). -/
def Obligations.HostAccessesCannotDisturbACommand : Prop :=
  ∀ (s : State) (es rest : List Event) (e : Event), s.schedule = es ++ e :: rest →
    (∀ e' ∈ es, e'.isPlain = true) → e.isPlain = true → (engineSteps (countEngine es) s.avce).busy = true →
    ∃ t, core.run (es.length + 1) s = .next t ∧ t.avce = engineSteps (countEngine (es ++ [e])) s.avce ∧
      t.schedule = rest

/-- A command that starts always completes with OK = 1, within 56 engine steps; a state that is BUSY and has the
invariant of the flags stands for every command in progress.  The sentence stands in 60_exceptions.md R307, marked
there as the spec's inference from R175 and R265; that with no event left the engine steps is the model's choice
(assumption log 1). -/
def Obligations.EveryStartedCommandCompletes : Prop :=
  ∀ s : State, FlagsInv s.avce → s.avce.busy = true → s.schedule = [] →
    ∃ k t, k ≤ 56 ∧ core.run k s = .next t ∧ statusWord t.avce = 6 ∧ t.avce.seq = .idle

/-- R96: POLL ends, with a read of STATUS in which BUSY is 0.  That the model puts one engine step between two reads
of a POLL is its own choice (assumption log 1). -/
def Obligations.PollEndsWithBusyClear : Prop :=
  ∀ (s : State), FlagsInv s.avce → s.schedule = [.poll] →
    ∃ k t, k ≤ 113 ∧ core.run k s = .next t ∧ t.schedule = [] ∧ t.avce.busy = false ∧
      t.rdata = statusWord t.avce ∧ t.rdata.getLsbD 0 = false

/-! ### The register space -/

/-- R51 with R21 to R29 and R59: what every mapped register number reads; a TRACE register reads 0 from TRACE_LEN
on. -/
def Obligations.RegisterMapReads : Prop :=
  ∀ a : Avce,
    hostRead a 0x000 = 0x41560007 ∧ hostRead a 0x001 = a.cmd ∧ hostRead a 0x002 = statusWord a ∧
    hostRead a 0x003 = errWord a.errinfo ∧ hostRead a 0x004 = a.textLen ∧ hostRead a 0x005 = a.keyLen ∧
    hostRead a 0x006 = a.outLen ∧ hostRead a 0x007 = a.traceLen ∧
    (∀ i : Fin 4, hostRead a (BitVec.ofNat 11 (0x008 + i.val)) = a.dout[i]) ∧
    (∀ i : Fin 32, hostRead a (BitVec.ofNat 11 (0x020 + i.val)) = a.textBuf[i]) ∧
    (∀ i : Fin 32, hostRead a (BitVec.ofNat 11 (0x040 + i.val)) = a.keyBuf[i]) ∧
    (∀ i : Fin 32, hostRead a (BitVec.ofNat 11 (0x060 + i.val)) = a.outBuf[i]) ∧
    (∀ i : Fin 1024, i.val < a.traceLen.toNat →
      hostRead a (BitVec.ofNat 11 (0x400 + i.val)) = a.trace.readWord i.val) ∧
    ∀ i : Fin 1024, a.traceLen.toNat ≤ i.val → hostRead a (BitVec.ofNat 11 (0x400 + i.val)) = 0

/-- R53 and R54: an unmapped register number reads 0; a write to it, or to a read-only register, changes nothing. -/
def Obligations.UnmappedAndReadOnlyAccessesAreInert : Prop :=
  (∀ (n : RegNo) (a : Avce), UnmappedNo n → hostRead a n = 0) ∧
    ∀ (n : RegNo) (v : Word) (s : State), UnmappedNo n ∨ ReadOnlyNo n → hostWrite n v s = .next s

/-- R56: while BUSY = 0 a write to an input register stores all 32 bits there and changes nothing else; a write to CMD
is a START; and no other write has an effect. -/
def Obligations.InputWritesStoreTheWholeWord : Prop :=
  ∀ (v : Word) (s : State), s.avce.busy = false →
    hostWrite 0x004 v s = .next { s with avce := { s.avce with textLen := v } } ∧
    hostWrite 0x005 v s = .next { s with avce := { s.avce with keyLen := v } } ∧
    (∀ i : Fin 32, hostWrite (BitVec.ofNat 11 (0x020 + i.val)) v s =
      .next { s with avce := { s.avce with textBuf := s.avce.textBuf.set i v } }) ∧
    (∀ i : Fin 32, hostWrite (BitVec.ofNat 11 (0x040 + i.val)) v s =
      .next { s with avce := { s.avce with keyBuf := s.avce.keyBuf.set i v } }) ∧
    hostWrite 0x001 v s = startWord v s ∧
    ∀ n : RegNo, n.toNat ≠ 0x001 → n.toNat ≠ 0x004 → n.toNat ≠ 0x005 → ¬(0x020 ≤ n.toNat ∧ n.toNat ≤ 0x05F) →
      hostWrite n v s = .next s

/-- R330: RESET in any state, BUSY or not: every register number reads 0 but ID, the sequencer is at (IDLE, 0), and every
internal register is 0; so a command in progress is gone, with no result and no trace (R331,
R332).  They are the registers after power-on.  That RESET is an event of a list is the model's choice (assumption
log 1), and so is that it leaves the events to come (assumption log 2). -/
def Obligations.ResetClearsEverything : Prop :=
  ∀ (s : State) (rest : List Event), s.schedule = .reset :: rest →
    ∃ t, step s = .next t ∧ t.schedule = rest ∧ t.avce = State.reset.avce ∧
      (∀ n : RegNo, hostRead t.avce n = if n.toNat = 0 then 0x41560007 else 0) ∧
      t.avce.seq.phase = 0 ∧ t.avce.seq.idx = 0 ∧ t.avce.cmdr = ⟨0, false, false⟩ ∧
      t.avce.busy = false ∧ t.avce.done = false ∧ t.avce.ok = false ∧
      (∀ j, t.avce.trace.readWord j = 0) ∧ t.avce.dkey = 0 ∧ t.avce.dtext = 0 ∧ t.avce.c = 0 ∧ t.avce.d = 0 ∧
      t.avce.l = 0 ∧ t.avce.r = 0 ∧ (∀ j : Fin 16, t.avce.k[j] = 0) ∧
      (∀ j : Fin 16, t.avce.akey[j] = 0 ∧ t.avce.atext[j] = 0 ∧ t.avce.st[j] = 0) ∧
      ∀ (j : Fin 44) (b : Fin 4), t.avce.w[j][b] = 0

/-! ### The ciphers -/

/-- The worked examples of the source: R161, R162, R230, R247 and R107. -/
def Obligations.SourceVectorsHold : Prop :=
  desE 0x0123456789ABCDEF 0x133457799BBCDFF1 = 0x85E813540F0AB405 ∧
  desD 0x85E813540F0AB405 0x133457799BBCDFF1 = 0x0123456789ABCDEF ∧
  aesE (bytesOf 0x00112233445566778899aabbccddeeff) (bytesOf 0x000102030405060708090a0b0c0d0e0f) =
    bytesOf 0x69c4e0d86a7b0430d8cdb78070b4c55a ∧
  aesD (bytesOf 0x69c4e0d86a7b0430d8cdb78070b4c55a) (bytesOf 0x000102030405060708090a0b0c0d0e0f) =
    bytesOf 0x00112233445566778899aabbccddeeff ∧
  gmul 0x57 0x02 = 0xAE ∧ gmul 0x57 0x13 = 0xFE

/-- FP is the inverse of IP, both ways: a sentence of 42_des_datapath.md R160, marked there as the spec's inference from
R141 and R159. -/
def Obligations.FinalPermutationInvertsInitial : Prop :=
  (∀ B : BitVec 64, perm 64 fpTable (perm 64 ipTable B) = B) ∧
    ∀ B : BitVec 64, perm 64 ipTable (perm 64 fpTable B) = B

/-- DES decryption undoes DES encryption and the other way round, for every text and key: the sentence of
42_des_datapath.md R163, marked there as the spec's inference from R157 to R162. -/
def Obligations.DesDecryptionInvertsEncryption : Prop :=
  (∀ T KEY : BitVec 64, desD (desE T KEY) KEY = T) ∧ ∀ T KEY : BitVec 64, desE (desD T KEY) KEY = T

/-- One position in rounds 1, 2, 9 and 16, two in the others (R123); the amounts sum to 28, so the halves come back: a
sentence of 41_des_key_schedule.md R123, marked there as the spec's inference from R109. -/
def Obligations.KeyRotationsCloseUp : Prop :=
  (∀ i, 1 ≤ i → i ≤ 16 → shiftAmount i = if i = 1 ∨ i = 2 ∨ i = 9 ∨ i = 16 then 1 else 2) ∧
    ((List.range 16).map fun i => shiftAmount (i + 1)).sum = 28 ∧
    ∀ key : BitVec 64, desHalves key 16 = desHalves key 0

/-- The parity bits of a DES key influence nothing, and the all-zero key has all-zero subkeys: sentences of
41_des_key_schedule.md R129, the first marked there as the spec's inference from R121. -/
def Obligations.KeyParityIsIgnored : Prop :=
  (∀ k k' : BitVec 64, SameButParity k k' →
    (∀ i, desSubkey k i = desSubkey k' i) ∧ (∀ T, desE T k = desE T k') ∧ ∀ T, desD T k = desD T k') ∧
  ∀ i, desSubkey 0 i = 0

/-- AES decryption undoes AES encryption and the other way round, for every block and key: the sentence of
46_aes_inverse.md R249, marked there as the spec's inference. -/
def Obligations.AesDecryptionInvertsEncryption : Prop :=
  (∀ B K : Block, aesD (aesE B K) K = B) ∧ ∀ B K : Block, aesE (aesD B K) K = B

/-- R200, R201, R206, R207 and R208: the recurrence of the key words, and the round keys cut from them. -/
def Obligations.KeyWordsFollowTheRecurrence : Prop :=
  ∀ key : Block,
    (∀ k : Fin 4, aesWordAt key k.val =
      #v[key[4 * k.val], key[4 * k.val + 1], key[4 * k.val + 2], key[4 * k.val + 3]]) ∧
    (∀ i, 4 ≤ i → i < 44 → i % 4 = 0 → ∀ (SUB RCX : AesWord), SUB = subWord (rotWord (aesWordAt key (i - 1))) →
      RCX = #v[SUB[0] ^^^ rcon (i / 4 - 1), SUB[1], SUB[2], SUB[3]] →
      aesWordAt key i = xorWord RCX (aesWordAt key (i - 4))) ∧
    (∀ i, 4 ≤ i → i < 44 → i % 4 ≠ 0 → aesWordAt key i = xorWord (aesWordAt key (i - 1)) (aesWordAt key (i - 4))) ∧
    (∀ (k : Fin 11) (c r : Fin 4), (aesRoundKey key k.val)[4 * c.val + r.val] = (aesWordAt key (4 * k.val + c.val))[r]) ∧
    aesRoundKey key 0 = key

/-- Each inverse stage undoes its stage, and the other way round: 46_aes_inverse.md R240 (by the choice of the row shift),
R241 and R242 (by the choice of the table) and R243, marked there as the spec's inference. -/
def Obligations.InverseStagesUndoTheirStages : Prop :=
  ∀ s : Block, invShiftRows (shiftRows s) = s ∧ shiftRows (invShiftRows s) = s ∧
    invSubBytes (subBytes s) = s ∧ subBytes (invSubBytes s) = s ∧
    invMixColumns (mixColumns s) = s ∧ mixColumns (invMixColumns s) = s

/-- `gmul` is commutative and distributes over XOR, with its corner cases (40_primitives.md R107, the first two marked
there as the spec's inference); and the columns of MixColumns and InvMixColumns in the block form of R224 and
R243. -/
def Obligations.GaloisArithmeticOfMixColumns : Prop :=
  (∀ a b : Byte, gmul a b = gmul b a) ∧ (∀ a b c : Byte, gmul a (b ^^^ c) = gmul a b ^^^ gmul a c) ∧
  (∀ a : Byte, gmul a 0 = 0 ∧ gmul a 1 = a ∧
    gmul a 2 = if a.getLsbD 7 = true then (a <<< 1) ^^^ 0x1B else a <<< 1) ∧
  (∀ (s : Block) (c : Fin 4) (a0 a1 a2 a3 : Byte), a0 = s[4 * c.val] → a1 = s[4 * c.val + 1] →
    a2 = s[4 * c.val + 2] → a3 = s[4 * c.val + 3] →
    (mixColumns s)[4 * c.val] = gmul 2 a0 ^^^ gmul 3 a1 ^^^ a2 ^^^ a3 ∧
    (mixColumns s)[4 * c.val + 1] = a0 ^^^ gmul 2 a1 ^^^ gmul 3 a2 ^^^ a3 ∧
    (mixColumns s)[4 * c.val + 2] = a0 ^^^ a1 ^^^ gmul 2 a2 ^^^ gmul 3 a3 ∧
    (mixColumns s)[4 * c.val + 3] = gmul 3 a0 ^^^ a1 ^^^ a2 ^^^ gmul 2 a3 ∧
    (invMixColumns s)[4 * c.val] = gmul 14 a0 ^^^ gmul 11 a1 ^^^ gmul 13 a2 ^^^ gmul 9 a3 ∧
    (invMixColumns s)[4 * c.val + 1] = gmul 9 a0 ^^^ gmul 14 a1 ^^^ gmul 11 a2 ^^^ gmul 13 a3 ∧
    (invMixColumns s)[4 * c.val + 2] = gmul 13 a0 ^^^ gmul 9 a1 ^^^ gmul 14 a2 ^^^ gmul 11 a3 ∧
    (invMixColumns s)[4 * c.val + 3] = gmul 11 a0 ^^^ gmul 13 a1 ^^^ gmul 9 a2 ^^^ gmul 14 a3)
end

