-- ==== Sys2Proof/Laws/Bits.lean ====
section
/-! SUPPORT. The bits of the bit-string primitives, by position from the left (00_scope.md R9, R12). -/

namespace Sys2Proof.Machine

/-- R12: output position `i` takes input position `T[i]` (here counted from 0). -/
theorem getMsbD_perm {n m : Nat} (T : List Nat) (B : BitVec n) (hT : T.length = m) (i : Nat) (hi : i < m) :
    (perm m T B).getMsbD i = B.getMsbD (T.getD i 0 - 1) := by
  subst hT
  unfold perm
  have hlen : (T.map fun t => B.getMsbD (t - 1)).length = T.length := by simp
  rw [BitVec.getMsbD_setWidth, BitVec.getMsbD_ofBoolListBE]
  simp [hlen, List.getD_eq_getElem?_getD, hi]

/-- R9: position `j` of `B[i..i+len-1]` is position `i - 1 + j` of `B` (counted from 0). -/
theorem getMsbD_slice {n : Nat} (B : BitVec n) (i len j : Nat) (hi : 1 ≤ i) (hn : i + len ≤ n + 1) (hj : j < len) :
    (slice B i len).getMsbD j = B.getMsbD (i - 1 + j) := by
  unfold slice
  simp only [BitVec.getMsbD_eq_getLsbD, BitVec.getLsbD_extractLsb']
  have h1 : len - 1 - j < len := by omega
  have h2 : i - 1 + j < n := by omega
  have h3 : n + 1 - i - len + (len - 1 - j) = n - 1 - (i - 1 + j) := by omega
  simp [hj, h1, h2, h3]

theorem keyHalves_append (CD : BitVec 56) : (keyHalves CD).1 ++ (keyHalves CD).2 = CD := by
  apply BitVec.eq_of_getMsbD_eq
  intro i hi
  rw [BitVec.getMsbD_append]
  by_cases h : 28 ≤ i
  · simp only [keyHalves, h, if_true]
    rw [getMsbD_slice _ _ _ _ (by omega) (by omega) (by omega)]
    congr 1
    omega
  · simp only [keyHalves, h, if_false]
    rw [getMsbD_slice _ _ _ _ (by omega) (by omega) (by omega)]
    congr 1
    omega

theorem dataHalves_append (B : BitVec 64) : (dataHalves B).1 ++ (dataHalves B).2 = B := by
  apply BitVec.eq_of_getMsbD_eq
  intro i hi
  rw [BitVec.getMsbD_append]
  by_cases h : 32 ≤ i
  · simp only [dataHalves, h, if_true]
    rw [getMsbD_slice _ _ _ _ (by omega) (by omega) (by omega)]
    congr 1
    omega
  · simp only [dataHalves, h, if_false]
    rw [getMsbD_slice _ _ _ _ (by omega) (by omega) (by omega)]
    congr 1
    omega

/-- R10, R28: the HI and LO words of a 64-bit string are its two halves. -/
theorem hiWord_append_loWord (B : BitVec 64) : hiWord B ++ loWord B = B := by
  apply BitVec.eq_of_getLsbD_eq
  intro i hi
  rw [BitVec.getLsbD_append]
  by_cases h : i < 32
  · simp [loWord, h]
  · simp only [hiWord, h, if_false, BitVec.getLsbD_setWidth, BitVec.getLsbD_ushiftRight]
    have h1 : i - 32 < 32 := by omega
    have h2 : 32 + (i - 32) = i := by omega
    simp [h1, h2]

@[simp] theorem getElem_xorBlock (a b : Block) (i : Nat) (h : i < 16) : (xorBlock a b)[i] = a[i] ^^^ b[i] := by
  simp [xorBlock]

@[simp] theorem getElem_xorWord (a b : AesWord) (i : Nat) (h : i < 4) : (xorWord a b)[i] = a[i] ^^^ b[i] := by
  simp [xorWord]

@[simp] theorem getElem_subBytes (s : Block) (i : Nat) (h : i < 16) : (subBytes s)[i] = sbox s[i] := by
  simp [subBytes]

@[simp] theorem getElem_invSubBytes (s : Block) (i : Nat) (h : i < 16) : (invSubBytes s)[i] = invSbox s[i] := by
  simp [invSubBytes]

/-- R10, R61: the four words of a block are its 128 bits, most significant word first. -/
theorem blockWord_append (b : Block) :
    blockWord b 0 ++ blockWord b 1 ++ blockWord b 2 ++ blockWord b 3 = blockBits b := by
  simp only [blockBits, blockWord, wordBits]
  apply BitVec.eq_of_toNat_eq
  simp only [BitVec.toNat_append, Nat.shiftLeft_or_distrib, ← Nat.shiftLeft_add, Nat.or_assoc]
  rfl

/-- AddRoundKey "is its own inverse" (R225). -/
theorem xorBlock_cancel (a b : Block) : xorBlock (xorBlock a b) b = a := by
  ext i hi
  simp

end Sys2Proof.Machine
end

