-- ==== Sys2Proof/Laws/Engine.lean ====
section
/-! SUPPORT. Runs of engine steps. -/

namespace Sys2Proof.Machine

@[simp] theorem engineStep_idle {a : Avce} (h : a.busy = false) : engineStep a = a := by simp [engineStep, h]

theorem engineStep_busy {a : Avce} (h : a.busy = true) : engineStep a = sequencedStep a := by simp [engineStep, h]

@[simp] theorem engineSteps_zero (a : Avce) : engineSteps 0 a = a := rfl

theorem engineSteps_succ (n : Nat) (a : Avce) : engineSteps (n + 1) a = engineSteps n (engineStep a) := rfl

theorem engineSteps_add (m n : Nat) (a : Avce) : engineSteps (m + n) a = engineSteps n (engineSteps m a) := by
  induction m generalizing a with
  | zero => simp
  | succ m ih => rw [show m + 1 + n = (m + n) + 1 by omega, engineSteps_succ, ih, engineSteps_succ]

theorem engineSteps_idle {a : Avce} (h : a.busy = false) (n : Nat) : engineSteps n a = a := by
  induction n with
  | zero => rfl
  | succ n ih => rw [engineSteps_succ, engineStep_idle h, ih]

/-- One engine step, by the step that SEQ selects (R30). -/
theorem engineStep_cases {a : Avce} (h : a.busy = true) :
    (a.seq = .idle ∧ engineStep a = a) ∨ (a.seq = .desPc1 ∧ engineStep a = stepDesPc1 a) ∨
    (∃ r, a.seq = .desKs r ∧ engineStep a = stepDesKs r a) ∨ (a.seq = .desIp ∧ engineStep a = stepDesIp a) ∨
    (∃ r, a.seq = .desRnd r ∧ engineStep a = stepDesRnd r a) ∨ (a.seq = .desFp ∧ engineStep a = stepDesFp a) ∨
    (∃ i, a.seq = .aesKx i ∧ engineStep a = stepAesKx i a) ∨ (a.seq = .aesArk0 ∧ engineStep a = stepAesArk0 a) ∨
    (∃ r, a.seq = .aesRnd r ∧ engineStep a = stepAesRnd r a) ∨ (a.seq = .aesOut ∧ engineStep a = stepAesOut a) := by
  rw [engineStep_busy h]
  cases hs : a.seq <;> simp [sequencedStep, hs]

/-- An engine step never touches the host's registers, the command or its latched operands (R25, R26, R31, R57). -/
theorem engineStep_keeps_inputs (a : Avce) :
    (engineStep a).cmd = a.cmd ∧ (engineStep a).textLen = a.textLen ∧ (engineStep a).keyLen = a.keyLen ∧
      (engineStep a).textBuf = a.textBuf ∧ (engineStep a).keyBuf = a.keyBuf ∧ (engineStep a).cmdr = a.cmdr ∧
      (engineStep a).dkey = a.dkey ∧ (engineStep a).dtext = a.dtext ∧ (engineStep a).akey = a.akey ∧
      (engineStep a).atext = a.atext ∧ (engineStep a).errinfo = a.errinfo := by
  unfold engineStep sequencedStep
  split
  · split <;> exact ⟨rfl, rfl, rfl, rfl, rfl, rfl, rfl, rfl, rfl, rfl, rfl⟩
  · exact ⟨rfl, rfl, rfl, rfl, rfl, rfl, rfl, rfl, rfl, rfl, rfl⟩

end Sys2Proof.Machine
end

