-- ==== Sys2Proof/Laws/Memory.lean ====
section
/-! SUPPORT. The trace memory: a read after a write, and the canonical form (10_state.md R29, R38). -/

namespace Sys2Proof.Machine

theorem Memory.readWord_filter_same (m : Memory) (i : Nat) :
    Memory.readWord (m.filter fun e => e.1 != i) i = 0 := by
  induction m with
  | nil => rfl
  | cons e m ih =>
    by_cases h : e.1 = i
    · simpa [List.filter_cons, h] using ih
    · have hs : ((e :: m).filter fun e => e.1 != i) = e :: m.filter fun e => e.1 != i := by simp [h]
      rw [hs]
      simpa [Memory.readWord, h] using ih

theorem Memory.readWord_filter_ne (m : Memory) {i j : Nat} (h : j ≠ i) :
    Memory.readWord (m.filter fun e => e.1 != i) j = Memory.readWord m j := by
  induction m with
  | nil => rfl
  | cons e m ih =>
    by_cases he : e.1 = i
    · have : e.1 ≠ j := fun hj => h (hj.symm.trans he)
      simpa [List.filter_cons, he, Memory.readWord, Ne.symm h] using ih
    · have hs : ((e :: m).filter fun e => e.1 != i) = e :: m.filter fun e => e.1 != i := by simp [he]
      rw [hs]
      by_cases hj : e.1 = j <;> simp [Memory.readWord, hj, ih]

theorem Memory.readWord_insertWord_same (i : Nat) (x : Word) (m : Memory) (h : ∀ e ∈ m, e.1 ≠ i) :
    Memory.readWord (Memory.insertWord i x m) i = x := by
  induction m with
  | nil => simp [Memory.insertWord, Memory.readWord]
  | cons e m ih =>
    have h1 : e.1 ≠ i := h e (by simp)
    have h2 : ∀ e ∈ m, e.1 ≠ i := fun e he => h e (by simp [he])
    by_cases hlt : i < e.1 <;> simp [Memory.insertWord, hlt, Memory.readWord, h1, ih h2]

theorem Memory.readWord_insertWord_ne {i j : Nat} (h : j ≠ i) (x : Word) (m : Memory) :
    Memory.readWord (Memory.insertWord i x m) j = Memory.readWord m j := by
  induction m with
  | nil => simp [Memory.insertWord, Memory.readWord, Ne.symm h]
  | cons e m ih =>
    by_cases hlt : i < e.1
    · simp [Memory.insertWord, hlt, Memory.readWord, Ne.symm h]
    · by_cases hj : e.1 = j
      · subst hj
        simp [Memory.insertWord, hlt, Memory.readWord]
      · simp [Memory.insertWord, hlt, Memory.readWord, hj, ih]

/-- A read after a write to the same word gives the value written. -/
@[simp] theorem Memory.readWord_writeWord_same (m : Memory) {i : Nat} (x : Word) (h : i < Config.traceCap) :
    Memory.readWord (m.writeWord i x) i = x := by
  unfold Memory.writeWord
  simp only [h, if_true]
  split
  · rename_i hx
    rw [hx]
    exact Memory.readWord_filter_same m i
  · apply Memory.readWord_insertWord_same
    intro e he
    simpa using (List.mem_filter.mp he).2

/-- A write leaves every other word alone. -/
theorem Memory.readWord_writeWord_ne (m : Memory) {i j : Nat} (x : Word) (h : j ≠ i) :
    Memory.readWord (m.writeWord i x) j = Memory.readWord m j := by
  unfold Memory.writeWord
  split
  · dsimp only
    split
    · exact Memory.readWord_filter_ne m h
    · rw [Memory.readWord_insertWord_ne h, Memory.readWord_filter_ne m h]
  · rfl

/-- What a write of consecutive words leaves at every index. -/
theorem Memory.readWord_writeWords (m : Memory) (off : Nat) (ws : List Word) (j : Nat)
    (h : off + ws.length ≤ Config.traceCap) :
    Memory.readWord (m.writeWords off ws) j =
      if off ≤ j ∧ j < off + ws.length then ws.getD (j - off) 0 else Memory.readWord m j := by
  induction ws generalizing m off with
  | nil =>
    simp [Memory.writeWords]
  | cons x xs ih =>
    have hlen : (x :: xs).length = xs.length + 1 := rfl
    rw [Memory.writeWords, ih _ _ (by omega)]
    by_cases hj : j = off
    · subst hj
      have h1 : ¬(j + 1 ≤ j ∧ j < j + 1 + xs.length) := by omega
      have h2 : j ≤ j ∧ j < j + (x :: xs).length := by omega
      rw [if_neg h1, if_pos h2, Memory.readWord_writeWord_same m x (by omega)]
      simp
    · rw [Memory.readWord_writeWord_ne m x hj]
      by_cases hr : off ≤ j ∧ j < off + (x :: xs).length
      · have h1 : off + 1 ≤ j ∧ j < off + 1 + xs.length := by omega
        rw [if_pos h1, if_pos hr]
        obtain ⟨k, hk⟩ : ∃ k, j - off = k + 1 := ⟨j - off - 1, by omega⟩
        rw [hk, show j - (off + 1) = k by omega]
        simp
      · have h1 : ¬(off + 1 ≤ j ∧ j < off + 1 + xs.length) := by omega
        rw [if_neg h1, if_neg hr]

theorem Memory.wf_filter {m : Memory} (h : m.wf) (p : Nat × Word → Bool) : Memory.wf (m.filter p) :=
  ⟨h.1.filter p, fun x hx => h.2 x (List.mem_filter.mp hx).1⟩

theorem Memory.mem_insertWord {i : Nat} {x : Word} {m : Memory} {e : Nat × Word} :
    e ∈ Memory.insertWord i x m ↔ e = (i, x) ∨ e ∈ m := by
  induction m with
  | nil => simp [Memory.insertWord]
  | cons f m ih =>
    by_cases hlt : i < f.1
    · simp [Memory.insertWord, hlt]
    · simp only [Memory.insertWord, hlt, if_false, List.mem_cons, ih]
      tauto

theorem Memory.wf_insertWord {m : Memory} (h : m.wf) {i : Nat} {x : Word} (hx : x ≠ 0) (hi : i < Config.traceCap)
    (hne : ∀ e ∈ m, e.1 ≠ i) : Memory.wf (Memory.insertWord i x m) := by
  refine ⟨?_, ?_⟩
  · obtain ⟨hp, -⟩ := h
    induction m with
    | nil => simp [Memory.insertWord]
    | cons f m ih =>
      obtain ⟨hf, hm⟩ := List.pairwise_cons.mp hp
      have hne' : ∀ e ∈ m, e.1 ≠ i := fun e he => hne e (by simp [he])
      have hfi : f.1 ≠ i := hne f (by simp)
      by_cases hlt : i < f.1
      · simp only [Memory.insertWord, hlt, if_true]
        refine List.pairwise_cons.mpr ⟨?_, hp⟩
        intro e he
        rcases List.mem_cons.mp he with rfl | he
        · exact hlt
        · exact lt_trans hlt (hf e he)
      · simp only [Memory.insertWord, hlt, if_false]
        refine List.pairwise_cons.mpr ⟨?_, ih hne' hm⟩
        intro e he
        rcases Memory.mem_insertWord.mp he with rfl | he
        · show f.1 < i
          omega
        · exact hf e he
  · intro e he
    rcases Memory.mem_insertWord.mp he with rfl | he
    · exact ⟨hx, hi⟩
    · exact h.2 e he

/-- Every write keeps the canonical form. -/
theorem Memory.wf_writeWord {m : Memory} (h : m.wf) (i : Nat) (x : Word) : Memory.wf (m.writeWord i x) := by
  unfold Memory.writeWord
  split
  · rename_i hi
    dsimp only
    split
    · exact Memory.wf_filter h _
    · rename_i hx
      refine Memory.wf_insertWord (Memory.wf_filter h _) hx hi ?_
      intro e he
      simpa using (List.mem_filter.mp he).2
  · exact h

theorem Memory.wf_writeWords {m : Memory} (h : m.wf) (off : Nat) (ws : List Word) :
    Memory.wf (m.writeWords off ws) := by
  induction ws generalizing m off with
  | nil => exact h
  | cons x xs ih => exact ih (Memory.wf_writeWord h off x) (off + 1)

/-- In canonical form an entry is what a read finds. -/
theorem Memory.readWord_of_mem {m : Memory} (h : m.wf) {e : Nat × Word} (he : e ∈ m) :
    Memory.readWord m e.1 = e.2 := by
  obtain ⟨hp, -⟩ := h
  induction m with
  | nil => simp at he
  | cons f m ih =>
    obtain ⟨hf, hm⟩ := List.pairwise_cons.mp hp
    rcases List.mem_cons.mp he with rfl | he
    · simp [Memory.readWord]
    · have : f.1 ≠ e.1 := (hf e he).ne
      simp [Memory.readWord, this, ih he hm]

end Sys2Proof.Machine
end

