-- ==== Sys2Proof/Laws/Operands.lean ====
section
/-! SUPPORT. What the test of a command's operands can find (40_primitives.md R106; 30_encoding.md R93 step 4). -/

namespace Sys2Proof.Machine

theorem operand_length (buf : Vector Word Config.bufCap) (n : Nat) (h : n ≤ 32) : (operand buf n).length = n := by
  simp [operand, h]

theorem operand_getElem (buf : Vector Word Config.bufCap) (n : Nat) (i : Fin 32) (h : i.val < (operand buf n).length) :
    (operand buf n)[i.val] = buf[i] := by
  simp [operand]

/-- The test passes exactly on a string of the right length whose characters are all hex digits. -/
theorem check_pass_iff (buf : Vector Word Config.bufCap) (len : Word) (n : Nat) (hn : n ≤ 32) :
    check buf len n = .pass ↔
      len = BitVec.ofNat 32 n ∧ ∀ i : Fin 32, i.val < n → isHex buf[i] = true := by
  unfold check
  by_cases hl : len = BitVec.ofNat 32 n
  · simp only [hl, if_true, true_and]
    cases hf : (operand buf n).findIdx? (fun c => !isHex c) with
    | none =>
      simp only [true_iff]
      intro i hi
      have hi' : i.val < (operand buf n).length := by rwa [operand_length buf n hn]
      have := List.findIdx?_eq_none_iff.mp hf _ (List.getElem_mem hi')
      rw [operand_getElem buf n i hi'] at this
      simpa using this
    | some i =>
      simp only [reduceCtorEq, false_iff, not_forall]
      obtain ⟨hi, hb, -⟩ := List.findIdx?_eq_some_iff_getElem.mp hf
      have hin : i < n := by rwa [operand_length buf n hn] at hi
      refine ⟨⟨i, by omega⟩, hin, ?_⟩
      rw [operand_getElem buf n ⟨i, by omega⟩ hi] at hb
      simpa using hb
  · simp [hl]

/-- It fails "length" exactly on a wrong length. -/
theorem check_length_iff (buf : Vector Word Config.bufCap) (len : Word) (n : Nat) :
    check buf len n = .length ↔ len ≠ BitVec.ofNat 32 n := by
  unfold check
  by_cases hl : len = BitVec.ofNat 32 n
  · simp only [hl, if_true, ne_eq, not_true_eq_false, iff_false]
    cases (operand buf n).findIdx? (fun c => !isHex c) <;> simp
  · simp [hl]

/-- It fails "charset at i" exactly when the length is right and `i` is the least offending index. -/
theorem check_charset_iff (buf : Vector Word Config.bufCap) (len : Word) (n : Nat) (hn : n ≤ 32) (i : Nat) :
    check buf len n = .charset i ↔
      len = BitVec.ofNat 32 n ∧ ∃ h : i < 32, FirstBadChar buf n ⟨i, h⟩ := by
  unfold check
  by_cases hl : len = BitVec.ofNat 32 n
  · simp only [hl, if_true, true_and]
    have key : (operand buf n).findIdx? (fun c => !isHex c) = some i ↔ ∃ h : i < 32, FirstBadChar buf n ⟨i, h⟩ := by
      rw [List.findIdx?_eq_some_iff_getElem]
      constructor
      · rintro ⟨hi, hb, hlt⟩
        have hin : i < n := by rwa [operand_length buf n hn] at hi
        have h32 : i < 32 := by omega
        refine ⟨h32, hin, ?_, ?_⟩
        · rw [operand_getElem buf n ⟨i, h32⟩ hi] at hb
          simpa using hb
        · intro j hj
          have := hlt j.val hj
          rw [operand_getElem buf n j] at this
          simpa using this
      · rintro ⟨h32, hin, hb, hlt⟩
        have hi : i < (operand buf n).length := by rwa [operand_length buf n hn]
        refine ⟨hi, ?_, ?_⟩
        · rw [operand_getElem buf n ⟨i, h32⟩ hi]
          simpa using hb
        · intro j hj
          rw [operand_getElem buf n ⟨j, by omega⟩]
          have := hlt ⟨j, by omega⟩ hj
          simpa using this
    cases hf : (operand buf n).findIdx? (fun c => !isHex c) with
    | none =>
      rw [hf] at key
      simpa using key
    | some k =>
      rw [hf] at key
      simpa using key
  · simp [hl]

/-- The operands of a command are valid exactly when step 4 of START raises nothing. -/
theorem operandFault_none_iff (need : Nat) (hn : need ≤ 32) (a : Avce) :
    operandFault need a = none ↔ OperandsValid need a := by
  have ht := check_pass_iff a.textBuf a.textLen need hn
  have hk := check_pass_iff a.keyBuf a.keyLen need hn
  unfold operandFault OperandsValid
  cases hct : check a.textBuf a.textLen need with
  | length =>
    simp only [reduceCtorEq, false_iff]
    rintro ⟨h, -, hc⟩
    have := ht.mpr ⟨h, fun i hi => (hc i hi).1⟩
    simp [hct] at this
  | charset i =>
    simp only [reduceCtorEq, false_iff]
    rintro ⟨h, -, hc⟩
    have := ht.mpr ⟨h, fun i hi => (hc i hi).1⟩
    simp [hct] at this
  | pass =>
    obtain ⟨htl, htc⟩ := ht.mp hct
    cases hck : check a.keyBuf a.keyLen need with
    | length =>
      simp only [reduceCtorEq, false_iff]
      rintro ⟨-, h, hc⟩
      have := hk.mpr ⟨h, fun i hi => (hc i hi).2⟩
      simp [hck] at this
    | charset i =>
      simp only [reduceCtorEq, false_iff]
      rintro ⟨-, h, hc⟩
      have := hk.mpr ⟨h, fun i hi => (hc i hi).2⟩
      simp [hck] at this
    | pass =>
      obtain ⟨hkl, hkc⟩ := hk.mp hck
      simp only [true_iff]
      exact ⟨htl, hkl, fun i hi => ⟨htc i hi, hkc i hi⟩⟩

/-- Step 4 of START finds one of the four failures of R301, in the order of R305. -/
theorem operandFault_cases (need : Nat) (hn : need ≤ 32) (a : Avce) :
    (a.textLen ≠ BitVec.ofNat 32 need ∧ operandFault need a = some (1, 0)) ∨
    (∃ i : Fin 32, a.textLen = BitVec.ofNat 32 need ∧ FirstBadChar a.textBuf need i ∧
      operandFault need a = some (2, BitVec.ofNat 8 i.val)) ∨
    (check a.textBuf a.textLen need = .pass ∧ a.keyLen ≠ BitVec.ofNat 32 need ∧
      operandFault need a = some (3, 0)) ∨
    (∃ i : Fin 32, check a.textBuf a.textLen need = .pass ∧ a.keyLen = BitVec.ofNat 32 need ∧
      FirstBadChar a.keyBuf need i ∧ operandFault need a = some (4, BitVec.ofNat 8 i.val)) ∨
    (OperandsValid need a ∧ operandFault need a = none) := by
  cases hct : check a.textBuf a.textLen need with
  | length =>
    exact .inl ⟨(check_length_iff _ _ _).mp hct, by simp [operandFault, hct]⟩
  | charset i =>
    obtain ⟨hl, h32, hb⟩ := (check_charset_iff _ _ _ hn i).mp hct
    exact .inr (.inl ⟨⟨i, h32⟩, hl, hb, by simp [operandFault, hct]⟩)
  | pass =>
    cases hck : check a.keyBuf a.keyLen need with
    | length =>
      exact .inr (.inr (.inl ⟨rfl, (check_length_iff _ _ _).mp hck, by simp [operandFault, hct, hck]⟩))
    | charset i =>
      obtain ⟨hl, h32, hb⟩ := (check_charset_iff _ _ _ hn i).mp hck
      exact .inr (.inr (.inr (.inl ⟨⟨i, h32⟩, rfl, hl, hb, by simp [operandFault, hct, hck]⟩)))
    | pass =>
      have h : operandFault need a = none := by simp [operandFault, hct, hck]
      exact .inr (.inr (.inr (.inr ⟨(operandFault_none_iff need hn a).mp h, h⟩)))

end Sys2Proof.Machine
end

