-- ==== Sys2Proof/Laws/PerInstr.lean ====
section
/-! SUPPORT. The claims made of every command as a term: it is well formed, and its word decodes to it. -/

namespace Sys2Proof.Laws

/-- The command is well formed, its word decodes to it, and the opcode-table reading of that word is the command. -/
def EncodingRoundTrip.Statement (i : Instr) : Prop :=
  i.wf = true ∧ decode (encode i) = .command i ∧ decodeTableWord 32 (encode i).toNat = some i

theorem EncodingRoundTrip.desEnc : EncodingRoundTrip.Statement .desEnc := by
  unfold EncodingRoundTrip.Statement; decide

theorem EncodingRoundTrip.desDec : EncodingRoundTrip.Statement .desDec := by
  unfold EncodingRoundTrip.Statement; decide

theorem EncodingRoundTrip.desEncT : EncodingRoundTrip.Statement .desEncT := by
  unfold EncodingRoundTrip.Statement; decide

theorem EncodingRoundTrip.desDecT : EncodingRoundTrip.Statement .desDecT := by
  unfold EncodingRoundTrip.Statement; decide

theorem EncodingRoundTrip.aesEnc : EncodingRoundTrip.Statement .aesEnc := by
  unfold EncodingRoundTrip.Statement; decide

theorem EncodingRoundTrip.aesDec : EncodingRoundTrip.Statement .aesDec := by
  unfold EncodingRoundTrip.Statement; decide

theorem EncodingRoundTrip.aesEncT : EncodingRoundTrip.Statement .aesEncT := by
  unfold EncodingRoundTrip.Statement; decide

theorem EncodingRoundTrip.aesDecT : EncodingRoundTrip.Statement .aesDecT := by
  unfold EncodingRoundTrip.Statement; decide

end Sys2Proof.Laws
end

