-- ==== Sys2Proof/Laws/RegisterMap.lean ====
section
/-! SUPPORT. What the register map says of a number, once for every register (20_memory.md R51). -/

namespace Sys2Proof.Machine

/-- The numbers that R51's table gives a register; an unmapped number is one of no row. -/
def RegName.holds : RegName → Nat → Prop
  | .id, k => k = 0x000
  | .cmd, k => k = 0x001
  | .status, k => k = 0x002
  | .errinfo, k => k = 0x003
  | .textLen, k => k = 0x004
  | .keyLen, k => k = 0x005
  | .outLen, k => k = 0x006
  | .traceLen, k => k = 0x007
  | .dout i, k => k = 0x008 + i.val
  | .textBuf i, k => k = 0x020 + i.val
  | .keyBuf i, k => k = 0x040 + i.val
  | .outBuf i, k => k = 0x060 + i.val
  | .trace i, k => k = 0x400 + i.val
  | .unmapped, k => (0x00C ≤ k ∧ k ≤ 0x01F) ∨ (0x080 ≤ k ∧ k ≤ 0x3FF)

theorem RegName.holds_ite {c : Prop} [Decidable c] {a b : RegName} {k : Nat} (ha : c → a.holds k)
    (hb : ¬c → b.holds k) : (if c then a else b).holds k := by
  by_cases h : c
  · rw [if_pos h]
    exact ha h
  · rw [if_neg h]
    exact hb h

theorem RegName.holds_dite {c : Prop} [Decidable c] {a : c → RegName} {b : RegName} {k : Nat}
    (ha : ∀ h : c, (a h).holds k) (hb : ¬c → b.holds k) : (if h : c then a h else b).holds k := by
  by_cases h : c
  · rw [dif_pos h]
    exact ha h
  · rw [dif_neg h]
    exact hb h

theorem regName_holds (n : RegNo) : (regName n).holds n.toNat := by
  have hn : n.toNat < 2 ^ 11 := n.isLt
  unfold regName
  repeat' first
    | refine RegName.holds_ite (fun h => ?_) fun h => ?_
    | refine RegName.holds_dite (fun h => ?_) fun h => ?_
  all_goals
    simp only [RegName.holds]
    omega

/-- No number belongs to two registers. -/
theorem RegName.holds_unique {r r' : RegName} {k : Nat} (h : r.holds k) (h' : r'.holds k) : r = r' := by
  cases r <;> cases r' <;> simp only [RegName.holds] at h h' <;>
    first
    | rfl
    | (exfalso; omega)
    | (congr 1; apply Fin.ext; omega)

/-- A number names the register whose numbers R51 says hold it, and no other. -/
theorem regName_eq_iff (n : RegNo) (r : RegName) : regName n = r ↔ r.holds n.toNat :=
  ⟨fun h => h ▸ regName_holds n, fun h => RegName.holds_unique (regName_holds n) h⟩

end Sys2Proof.Machine
end

