-- ==== Sys2Proof/Laws/State.lean ====
section
/-! SUPPORT. One lemma per field of `Avce` for every named update of it, each true by definition: what the update
writes, and that it leaves the other fields alone. -/

namespace Sys2Proof.Machine

@[simp] theorem clearForStart_cmd (v : Word) (a : Avce) : (clearForStart v a).cmd = v := rfl
@[simp] theorem clearForStart_busy (v : Word) (a : Avce) : (clearForStart v a).busy = a.busy := rfl
@[simp] theorem clearForStart_done (v : Word) (a : Avce) : (clearForStart v a).done = false := rfl
@[simp] theorem clearForStart_ok (v : Word) (a : Avce) : (clearForStart v a).ok = false := rfl
@[simp] theorem clearForStart_errinfo (v : Word) (a : Avce) : (clearForStart v a).errinfo = ⟨0, 0, 0⟩ := rfl
@[simp] theorem clearForStart_textLen (v : Word) (a : Avce) : (clearForStart v a).textLen = a.textLen := rfl
@[simp] theorem clearForStart_keyLen (v : Word) (a : Avce) : (clearForStart v a).keyLen = a.keyLen := rfl
@[simp] theorem clearForStart_textBuf (v : Word) (a : Avce) : (clearForStart v a).textBuf = a.textBuf := rfl
@[simp] theorem clearForStart_keyBuf (v : Word) (a : Avce) : (clearForStart v a).keyBuf = a.keyBuf := rfl
@[simp] theorem clearForStart_outLen (v : Word) (a : Avce) : (clearForStart v a).outLen = 0 := rfl
@[simp] theorem clearForStart_outBuf (v : Word) (a : Avce) : (clearForStart v a).outBuf =
      Vector.replicate 32 0 := rfl
@[simp] theorem clearForStart_dout (v : Word) (a : Avce) : (clearForStart v a).dout = Vector.replicate 4 0 := rfl
@[simp] theorem clearForStart_traceLen (v : Word) (a : Avce) : (clearForStart v a).traceLen = 0 := rfl
@[simp] theorem clearForStart_trace (v : Word) (a : Avce) : (clearForStart v a).trace = a.trace := rfl
@[simp] theorem clearForStart_seq (v : Word) (a : Avce) : (clearForStart v a).seq = a.seq := rfl
@[simp] theorem clearForStart_cmdr (v : Word) (a : Avce) : (clearForStart v a).cmdr = a.cmdr := rfl
@[simp] theorem clearForStart_dkey (v : Word) (a : Avce) : (clearForStart v a).dkey = a.dkey := rfl
@[simp] theorem clearForStart_dtext (v : Word) (a : Avce) : (clearForStart v a).dtext = a.dtext := rfl
@[simp] theorem clearForStart_akey (v : Word) (a : Avce) : (clearForStart v a).akey = a.akey := rfl
@[simp] theorem clearForStart_atext (v : Word) (a : Avce) : (clearForStart v a).atext = a.atext := rfl
@[simp] theorem clearForStart_c (v : Word) (a : Avce) : (clearForStart v a).c = a.c := rfl
@[simp] theorem clearForStart_d (v : Word) (a : Avce) : (clearForStart v a).d = a.d := rfl
@[simp] theorem clearForStart_l (v : Word) (a : Avce) : (clearForStart v a).l = a.l := rfl
@[simp] theorem clearForStart_r (v : Word) (a : Avce) : (clearForStart v a).r = a.r := rfl
@[simp] theorem clearForStart_k (v : Word) (a : Avce) : (clearForStart v a).k = a.k := rfl
@[simp] theorem clearForStart_st (v : Word) (a : Avce) : (clearForStart v a).st = a.st := rfl
@[simp] theorem clearForStart_w (v : Word) (a : Avce) : (clearForStart v a).w = a.w := rfl

@[simp] theorem raiseError_cmd (cls : ErrClass) (sub : BitVec 4) (index : BitVec 8) (a : Avce) : (raiseError cls sub index a).cmd =
      a.cmd := rfl
@[simp] theorem raiseError_busy (cls : ErrClass) (sub : BitVec 4) (index : BitVec 8) (a : Avce) : (raiseError cls sub index a).busy =
      a.busy := rfl
@[simp] theorem raiseError_done (cls : ErrClass) (sub : BitVec 4) (index : BitVec 8) (a : Avce) : (raiseError cls sub index a).done =
      true := rfl
@[simp] theorem raiseError_ok (cls : ErrClass) (sub : BitVec 4) (index : BitVec 8) (a : Avce) : (raiseError cls sub index a).ok =
      a.ok := rfl
@[simp] theorem raiseError_errinfo (cls : ErrClass) (sub : BitVec 4) (index : BitVec 8) (a : Avce) : (raiseError cls sub index a).errinfo =
      ⟨cls.code, sub, index⟩ := rfl
@[simp] theorem raiseError_textLen (cls : ErrClass) (sub : BitVec 4) (index : BitVec 8) (a : Avce) : (raiseError cls sub index a).textLen =
      a.textLen := rfl
@[simp] theorem raiseError_keyLen (cls : ErrClass) (sub : BitVec 4) (index : BitVec 8) (a : Avce) : (raiseError cls sub index a).keyLen =
      a.keyLen := rfl
@[simp] theorem raiseError_textBuf (cls : ErrClass) (sub : BitVec 4) (index : BitVec 8) (a : Avce) : (raiseError cls sub index a).textBuf =
      a.textBuf := rfl
@[simp] theorem raiseError_keyBuf (cls : ErrClass) (sub : BitVec 4) (index : BitVec 8) (a : Avce) : (raiseError cls sub index a).keyBuf =
      a.keyBuf := rfl
@[simp] theorem raiseError_outLen (cls : ErrClass) (sub : BitVec 4) (index : BitVec 8) (a : Avce) : (raiseError cls sub index a).outLen =
      a.outLen := rfl
@[simp] theorem raiseError_outBuf (cls : ErrClass) (sub : BitVec 4) (index : BitVec 8) (a : Avce) : (raiseError cls sub index a).outBuf =
      a.outBuf := rfl
@[simp] theorem raiseError_dout (cls : ErrClass) (sub : BitVec 4) (index : BitVec 8) (a : Avce) : (raiseError cls sub index a).dout =
      a.dout := rfl
@[simp] theorem raiseError_traceLen (cls : ErrClass) (sub : BitVec 4) (index : BitVec 8) (a : Avce) : (raiseError cls sub index a).traceLen =
      a.traceLen := rfl
@[simp] theorem raiseError_trace (cls : ErrClass) (sub : BitVec 4) (index : BitVec 8) (a : Avce) : (raiseError cls sub index a).trace =
      a.trace := rfl
@[simp] theorem raiseError_seq (cls : ErrClass) (sub : BitVec 4) (index : BitVec 8) (a : Avce) : (raiseError cls sub index a).seq =
      a.seq := rfl
@[simp] theorem raiseError_cmdr (cls : ErrClass) (sub : BitVec 4) (index : BitVec 8) (a : Avce) : (raiseError cls sub index a).cmdr =
      a.cmdr := rfl
@[simp] theorem raiseError_dkey (cls : ErrClass) (sub : BitVec 4) (index : BitVec 8) (a : Avce) : (raiseError cls sub index a).dkey =
      a.dkey := rfl
@[simp] theorem raiseError_dtext (cls : ErrClass) (sub : BitVec 4) (index : BitVec 8) (a : Avce) : (raiseError cls sub index a).dtext =
      a.dtext := rfl
@[simp] theorem raiseError_akey (cls : ErrClass) (sub : BitVec 4) (index : BitVec 8) (a : Avce) : (raiseError cls sub index a).akey =
      a.akey := rfl
@[simp] theorem raiseError_atext (cls : ErrClass) (sub : BitVec 4) (index : BitVec 8) (a : Avce) : (raiseError cls sub index a).atext =
      a.atext := rfl
@[simp] theorem raiseError_c (cls : ErrClass) (sub : BitVec 4) (index : BitVec 8) (a : Avce) : (raiseError cls sub index a).c =
      a.c := rfl
@[simp] theorem raiseError_d (cls : ErrClass) (sub : BitVec 4) (index : BitVec 8) (a : Avce) : (raiseError cls sub index a).d =
      a.d := rfl
@[simp] theorem raiseError_l (cls : ErrClass) (sub : BitVec 4) (index : BitVec 8) (a : Avce) : (raiseError cls sub index a).l =
      a.l := rfl
@[simp] theorem raiseError_r (cls : ErrClass) (sub : BitVec 4) (index : BitVec 8) (a : Avce) : (raiseError cls sub index a).r =
      a.r := rfl
@[simp] theorem raiseError_k (cls : ErrClass) (sub : BitVec 4) (index : BitVec 8) (a : Avce) : (raiseError cls sub index a).k =
      a.k := rfl
@[simp] theorem raiseError_st (cls : ErrClass) (sub : BitVec 4) (index : BitVec 8) (a : Avce) : (raiseError cls sub index a).st =
      a.st := rfl
@[simp] theorem raiseError_w (cls : ErrClass) (sub : BitVec 4) (index : BitVec 8) (a : Avce) : (raiseError cls sub index a).w =
      a.w := rfl

@[simp] theorem latchDes_cmd (dec trc : Bool) (a : Avce) : (latchDes dec trc a).cmd = a.cmd := rfl
@[simp] theorem latchDes_busy (dec trc : Bool) (a : Avce) : (latchDes dec trc a).busy = true := rfl
@[simp] theorem latchDes_done (dec trc : Bool) (a : Avce) : (latchDes dec trc a).done = a.done := rfl
@[simp] theorem latchDes_ok (dec trc : Bool) (a : Avce) : (latchDes dec trc a).ok = a.ok := rfl
@[simp] theorem latchDes_errinfo (dec trc : Bool) (a : Avce) : (latchDes dec trc a).errinfo = a.errinfo := rfl
@[simp] theorem latchDes_textLen (dec trc : Bool) (a : Avce) : (latchDes dec trc a).textLen = a.textLen := rfl
@[simp] theorem latchDes_keyLen (dec trc : Bool) (a : Avce) : (latchDes dec trc a).keyLen = a.keyLen := rfl
@[simp] theorem latchDes_textBuf (dec trc : Bool) (a : Avce) : (latchDes dec trc a).textBuf = a.textBuf := rfl
@[simp] theorem latchDes_keyBuf (dec trc : Bool) (a : Avce) : (latchDes dec trc a).keyBuf = a.keyBuf := rfl
@[simp] theorem latchDes_outLen (dec trc : Bool) (a : Avce) : (latchDes dec trc a).outLen = a.outLen := rfl
@[simp] theorem latchDes_outBuf (dec trc : Bool) (a : Avce) : (latchDes dec trc a).outBuf = a.outBuf := rfl
@[simp] theorem latchDes_dout (dec trc : Bool) (a : Avce) : (latchDes dec trc a).dout = a.dout := rfl
@[simp] theorem latchDes_traceLen (dec trc : Bool) (a : Avce) : (latchDes dec trc a).traceLen = a.traceLen := rfl
@[simp] theorem latchDes_trace (dec trc : Bool) (a : Avce) : (latchDes dec trc a).trace = a.trace := rfl
@[simp] theorem latchDes_seq (dec trc : Bool) (a : Avce) : (latchDes dec trc a).seq = .desPc1 := rfl
@[simp] theorem latchDes_cmdr (dec trc : Bool) (a : Avce) : (latchDes dec trc a).cmdr = ⟨1, dec, trc⟩ := rfl
@[simp] theorem latchDes_dkey (dec trc : Bool) (a : Avce) : (latchDes dec trc a).dkey = desOperand a.keyBuf := rfl
@[simp] theorem latchDes_dtext (dec trc : Bool) (a : Avce) : (latchDes dec trc a).dtext =
      desOperand a.textBuf := rfl
@[simp] theorem latchDes_akey (dec trc : Bool) (a : Avce) : (latchDes dec trc a).akey = a.akey := rfl
@[simp] theorem latchDes_atext (dec trc : Bool) (a : Avce) : (latchDes dec trc a).atext = a.atext := rfl
@[simp] theorem latchDes_c (dec trc : Bool) (a : Avce) : (latchDes dec trc a).c = a.c := rfl
@[simp] theorem latchDes_d (dec trc : Bool) (a : Avce) : (latchDes dec trc a).d = a.d := rfl
@[simp] theorem latchDes_l (dec trc : Bool) (a : Avce) : (latchDes dec trc a).l = a.l := rfl
@[simp] theorem latchDes_r (dec trc : Bool) (a : Avce) : (latchDes dec trc a).r = a.r := rfl
@[simp] theorem latchDes_k (dec trc : Bool) (a : Avce) : (latchDes dec trc a).k = a.k := rfl
@[simp] theorem latchDes_st (dec trc : Bool) (a : Avce) : (latchDes dec trc a).st = a.st := rfl
@[simp] theorem latchDes_w (dec trc : Bool) (a : Avce) : (latchDes dec trc a).w = a.w := rfl

@[simp] theorem latchAes_cmd (dec trc : Bool) (a : Avce) : (latchAes dec trc a).cmd = a.cmd := rfl
@[simp] theorem latchAes_busy (dec trc : Bool) (a : Avce) : (latchAes dec trc a).busy = true := rfl
@[simp] theorem latchAes_done (dec trc : Bool) (a : Avce) : (latchAes dec trc a).done = a.done := rfl
@[simp] theorem latchAes_ok (dec trc : Bool) (a : Avce) : (latchAes dec trc a).ok = a.ok := rfl
@[simp] theorem latchAes_errinfo (dec trc : Bool) (a : Avce) : (latchAes dec trc a).errinfo = a.errinfo := rfl
@[simp] theorem latchAes_textLen (dec trc : Bool) (a : Avce) : (latchAes dec trc a).textLen = a.textLen := rfl
@[simp] theorem latchAes_keyLen (dec trc : Bool) (a : Avce) : (latchAes dec trc a).keyLen = a.keyLen := rfl
@[simp] theorem latchAes_textBuf (dec trc : Bool) (a : Avce) : (latchAes dec trc a).textBuf = a.textBuf := rfl
@[simp] theorem latchAes_keyBuf (dec trc : Bool) (a : Avce) : (latchAes dec trc a).keyBuf = a.keyBuf := rfl
@[simp] theorem latchAes_outLen (dec trc : Bool) (a : Avce) : (latchAes dec trc a).outLen = a.outLen := rfl
@[simp] theorem latchAes_outBuf (dec trc : Bool) (a : Avce) : (latchAes dec trc a).outBuf = a.outBuf := rfl
@[simp] theorem latchAes_dout (dec trc : Bool) (a : Avce) : (latchAes dec trc a).dout = a.dout := rfl
@[simp] theorem latchAes_traceLen (dec trc : Bool) (a : Avce) : (latchAes dec trc a).traceLen = a.traceLen := rfl
@[simp] theorem latchAes_trace (dec trc : Bool) (a : Avce) : (latchAes dec trc a).trace = a.trace := rfl
@[simp] theorem latchAes_seq (dec trc : Bool) (a : Avce) : (latchAes dec trc a).seq = .aesKx 0 := rfl
@[simp] theorem latchAes_cmdr (dec trc : Bool) (a : Avce) : (latchAes dec trc a).cmdr = ⟨2, dec, trc⟩ := rfl
@[simp] theorem latchAes_dkey (dec trc : Bool) (a : Avce) : (latchAes dec trc a).dkey = a.dkey := rfl
@[simp] theorem latchAes_dtext (dec trc : Bool) (a : Avce) : (latchAes dec trc a).dtext = a.dtext := rfl
@[simp] theorem latchAes_akey (dec trc : Bool) (a : Avce) : (latchAes dec trc a).akey = aesOperand a.keyBuf := rfl
@[simp] theorem latchAes_atext (dec trc : Bool) (a : Avce) : (latchAes dec trc a).atext =
      aesOperand a.textBuf := rfl
@[simp] theorem latchAes_c (dec trc : Bool) (a : Avce) : (latchAes dec trc a).c = a.c := rfl
@[simp] theorem latchAes_d (dec trc : Bool) (a : Avce) : (latchAes dec trc a).d = a.d := rfl
@[simp] theorem latchAes_l (dec trc : Bool) (a : Avce) : (latchAes dec trc a).l = a.l := rfl
@[simp] theorem latchAes_r (dec trc : Bool) (a : Avce) : (latchAes dec trc a).r = a.r := rfl
@[simp] theorem latchAes_k (dec trc : Bool) (a : Avce) : (latchAes dec trc a).k = a.k := rfl
@[simp] theorem latchAes_st (dec trc : Bool) (a : Avce) : (latchAes dec trc a).st = a.st := rfl
@[simp] theorem latchAes_w (dec trc : Bool) (a : Avce) : (latchAes dec trc a).w = a.w := rfl

@[simp] theorem completeDes_cmd (out : BitVec 64) (a : Avce) : (completeDes out a).cmd = a.cmd := rfl
@[simp] theorem completeDes_busy (out : BitVec 64) (a : Avce) : (completeDes out a).busy = false := rfl
@[simp] theorem completeDes_done (out : BitVec 64) (a : Avce) : (completeDes out a).done = true := rfl
@[simp] theorem completeDes_ok (out : BitVec 64) (a : Avce) : (completeDes out a).ok = true := rfl
@[simp] theorem completeDes_errinfo (out : BitVec 64) (a : Avce) : (completeDes out a).errinfo = a.errinfo := rfl
@[simp] theorem completeDes_textLen (out : BitVec 64) (a : Avce) : (completeDes out a).textLen = a.textLen := rfl
@[simp] theorem completeDes_keyLen (out : BitVec 64) (a : Avce) : (completeDes out a).keyLen = a.keyLen := rfl
@[simp] theorem completeDes_textBuf (out : BitVec 64) (a : Avce) : (completeDes out a).textBuf = a.textBuf := rfl
@[simp] theorem completeDes_keyBuf (out : BitVec 64) (a : Avce) : (completeDes out a).keyBuf = a.keyBuf := rfl
@[simp] theorem completeDes_outLen (out : BitVec 64) (a : Avce) : (completeDes out a).outLen = 16 := rfl
@[simp] theorem completeDes_outBuf (out : BitVec 64) (a : Avce) : (completeDes out a).outBuf =
      putDigits 16 out a.outBuf := rfl
@[simp] theorem completeDes_dout (out : BitVec 64) (a : Avce) : (completeDes out a).dout =
      #v[hiWord out, loWord out, 0, 0] := rfl
@[simp] theorem completeDes_traceLen (out : BitVec 64) (a : Avce) : (completeDes out a).traceLen =
      if a.cmdr.trc then 400 else 0 := rfl
@[simp] theorem completeDes_trace (out : BitVec 64) (a : Avce) : (completeDes out a).trace = a.trace := rfl
@[simp] theorem completeDes_seq (out : BitVec 64) (a : Avce) : (completeDes out a).seq = .idle := rfl
@[simp] theorem completeDes_cmdr (out : BitVec 64) (a : Avce) : (completeDes out a).cmdr = a.cmdr := rfl
@[simp] theorem completeDes_dkey (out : BitVec 64) (a : Avce) : (completeDes out a).dkey = a.dkey := rfl
@[simp] theorem completeDes_dtext (out : BitVec 64) (a : Avce) : (completeDes out a).dtext = a.dtext := rfl
@[simp] theorem completeDes_akey (out : BitVec 64) (a : Avce) : (completeDes out a).akey = a.akey := rfl
@[simp] theorem completeDes_atext (out : BitVec 64) (a : Avce) : (completeDes out a).atext = a.atext := rfl
@[simp] theorem completeDes_c (out : BitVec 64) (a : Avce) : (completeDes out a).c = a.c := rfl
@[simp] theorem completeDes_d (out : BitVec 64) (a : Avce) : (completeDes out a).d = a.d := rfl
@[simp] theorem completeDes_l (out : BitVec 64) (a : Avce) : (completeDes out a).l = a.l := rfl
@[simp] theorem completeDes_r (out : BitVec 64) (a : Avce) : (completeDes out a).r = a.r := rfl
@[simp] theorem completeDes_k (out : BitVec 64) (a : Avce) : (completeDes out a).k = a.k := rfl
@[simp] theorem completeDes_st (out : BitVec 64) (a : Avce) : (completeDes out a).st = a.st := rfl
@[simp] theorem completeDes_w (out : BitVec 64) (a : Avce) : (completeDes out a).w = a.w := rfl

@[simp] theorem completeAes_cmd (out : Block) (a : Avce) : (completeAes out a).cmd = a.cmd := rfl
@[simp] theorem completeAes_busy (out : Block) (a : Avce) : (completeAes out a).busy = false := rfl
@[simp] theorem completeAes_done (out : Block) (a : Avce) : (completeAes out a).done = true := rfl
@[simp] theorem completeAes_ok (out : Block) (a : Avce) : (completeAes out a).ok = true := rfl
@[simp] theorem completeAes_errinfo (out : Block) (a : Avce) : (completeAes out a).errinfo = a.errinfo := rfl
@[simp] theorem completeAes_textLen (out : Block) (a : Avce) : (completeAes out a).textLen = a.textLen := rfl
@[simp] theorem completeAes_keyLen (out : Block) (a : Avce) : (completeAes out a).keyLen = a.keyLen := rfl
@[simp] theorem completeAes_textBuf (out : Block) (a : Avce) : (completeAes out a).textBuf = a.textBuf := rfl
@[simp] theorem completeAes_keyBuf (out : Block) (a : Avce) : (completeAes out a).keyBuf = a.keyBuf := rfl
@[simp] theorem completeAes_outLen (out : Block) (a : Avce) : (completeAes out a).outLen = 32 := rfl
@[simp] theorem completeAes_outBuf (out : Block) (a : Avce) : (completeAes out a).outBuf =
      putDigits 32 (blockBits out) a.outBuf := rfl
@[simp] theorem completeAes_dout (out : Block) (a : Avce) : (completeAes out a).dout =
      #v[blockWord out 0, blockWord out 1, blockWord out 2, blockWord out 3] := rfl
@[simp] theorem completeAes_traceLen (out : Block) (a : Avce) : (completeAes out a).traceLen =
      if a.cmdr.trc then 720 else 0 := rfl
@[simp] theorem completeAes_trace (out : Block) (a : Avce) : (completeAes out a).trace = a.trace := rfl
@[simp] theorem completeAes_seq (out : Block) (a : Avce) : (completeAes out a).seq = .idle := rfl
@[simp] theorem completeAes_cmdr (out : Block) (a : Avce) : (completeAes out a).cmdr = a.cmdr := rfl
@[simp] theorem completeAes_dkey (out : Block) (a : Avce) : (completeAes out a).dkey = a.dkey := rfl
@[simp] theorem completeAes_dtext (out : Block) (a : Avce) : (completeAes out a).dtext = a.dtext := rfl
@[simp] theorem completeAes_akey (out : Block) (a : Avce) : (completeAes out a).akey = a.akey := rfl
@[simp] theorem completeAes_atext (out : Block) (a : Avce) : (completeAes out a).atext = a.atext := rfl
@[simp] theorem completeAes_c (out : Block) (a : Avce) : (completeAes out a).c = a.c := rfl
@[simp] theorem completeAes_d (out : Block) (a : Avce) : (completeAes out a).d = a.d := rfl
@[simp] theorem completeAes_l (out : Block) (a : Avce) : (completeAes out a).l = a.l := rfl
@[simp] theorem completeAes_r (out : Block) (a : Avce) : (completeAes out a).r = a.r := rfl
@[simp] theorem completeAes_k (out : Block) (a : Avce) : (completeAes out a).k = a.k := rfl
@[simp] theorem completeAes_st (out : Block) (a : Avce) : (completeAes out a).st = a.st := rfl
@[simp] theorem completeAes_w (out : Block) (a : Avce) : (completeAes out a).w = a.w := rfl

@[simp] theorem stepDesPc1_cmd (a : Avce) : (stepDesPc1 a).cmd = a.cmd := rfl
@[simp] theorem stepDesPc1_busy (a : Avce) : (stepDesPc1 a).busy = a.busy := rfl
@[simp] theorem stepDesPc1_done (a : Avce) : (stepDesPc1 a).done = a.done := rfl
@[simp] theorem stepDesPc1_ok (a : Avce) : (stepDesPc1 a).ok = a.ok := rfl
@[simp] theorem stepDesPc1_errinfo (a : Avce) : (stepDesPc1 a).errinfo = a.errinfo := rfl
@[simp] theorem stepDesPc1_textLen (a : Avce) : (stepDesPc1 a).textLen = a.textLen := rfl
@[simp] theorem stepDesPc1_keyLen (a : Avce) : (stepDesPc1 a).keyLen = a.keyLen := rfl
@[simp] theorem stepDesPc1_textBuf (a : Avce) : (stepDesPc1 a).textBuf = a.textBuf := rfl
@[simp] theorem stepDesPc1_keyBuf (a : Avce) : (stepDesPc1 a).keyBuf = a.keyBuf := rfl
@[simp] theorem stepDesPc1_outLen (a : Avce) : (stepDesPc1 a).outLen = a.outLen := rfl
@[simp] theorem stepDesPc1_outBuf (a : Avce) : (stepDesPc1 a).outBuf = a.outBuf := rfl
@[simp] theorem stepDesPc1_dout (a : Avce) : (stepDesPc1 a).dout = a.dout := rfl
@[simp] theorem stepDesPc1_traceLen (a : Avce) : (stepDesPc1 a).traceLen = a.traceLen := rfl
@[simp] theorem stepDesPc1_trace (a : Avce) : (stepDesPc1 a).trace =
      traceIf a 0 (desHeader a.cmd a.dkey a.dtext (keyHalves (perm 56 pc1Table a.dkey)).1
        (keyHalves (perm 56 pc1Table a.dkey)).2) := rfl
@[simp] theorem stepDesPc1_seq (a : Avce) : (stepDesPc1 a).seq = .desKs 0 := rfl
@[simp] theorem stepDesPc1_cmdr (a : Avce) : (stepDesPc1 a).cmdr = a.cmdr := rfl
@[simp] theorem stepDesPc1_dkey (a : Avce) : (stepDesPc1 a).dkey = a.dkey := rfl
@[simp] theorem stepDesPc1_dtext (a : Avce) : (stepDesPc1 a).dtext = a.dtext := rfl
@[simp] theorem stepDesPc1_akey (a : Avce) : (stepDesPc1 a).akey = a.akey := rfl
@[simp] theorem stepDesPc1_atext (a : Avce) : (stepDesPc1 a).atext = a.atext := rfl
@[simp] theorem stepDesPc1_c (a : Avce) : (stepDesPc1 a).c = (keyHalves (perm 56 pc1Table a.dkey)).1 := rfl
@[simp] theorem stepDesPc1_d (a : Avce) : (stepDesPc1 a).d = (keyHalves (perm 56 pc1Table a.dkey)).2 := rfl
@[simp] theorem stepDesPc1_l (a : Avce) : (stepDesPc1 a).l = a.l := rfl
@[simp] theorem stepDesPc1_r (a : Avce) : (stepDesPc1 a).r = a.r := rfl
@[simp] theorem stepDesPc1_k (a : Avce) : (stepDesPc1 a).k = a.k := rfl
@[simp] theorem stepDesPc1_st (a : Avce) : (stepDesPc1 a).st = a.st := rfl
@[simp] theorem stepDesPc1_w (a : Avce) : (stepDesPc1 a).w = a.w := rfl

@[simp] theorem stepDesKs_cmd (r : Fin 16) (a : Avce) : (stepDesKs r a).cmd = a.cmd := rfl
@[simp] theorem stepDesKs_busy (r : Fin 16) (a : Avce) : (stepDesKs r a).busy = a.busy := rfl
@[simp] theorem stepDesKs_done (r : Fin 16) (a : Avce) : (stepDesKs r a).done = a.done := rfl
@[simp] theorem stepDesKs_ok (r : Fin 16) (a : Avce) : (stepDesKs r a).ok = a.ok := rfl
@[simp] theorem stepDesKs_errinfo (r : Fin 16) (a : Avce) : (stepDesKs r a).errinfo = a.errinfo := rfl
@[simp] theorem stepDesKs_textLen (r : Fin 16) (a : Avce) : (stepDesKs r a).textLen = a.textLen := rfl
@[simp] theorem stepDesKs_keyLen (r : Fin 16) (a : Avce) : (stepDesKs r a).keyLen = a.keyLen := rfl
@[simp] theorem stepDesKs_textBuf (r : Fin 16) (a : Avce) : (stepDesKs r a).textBuf = a.textBuf := rfl
@[simp] theorem stepDesKs_keyBuf (r : Fin 16) (a : Avce) : (stepDesKs r a).keyBuf = a.keyBuf := rfl
@[simp] theorem stepDesKs_outLen (r : Fin 16) (a : Avce) : (stepDesKs r a).outLen = a.outLen := rfl
@[simp] theorem stepDesKs_outBuf (r : Fin 16) (a : Avce) : (stepDesKs r a).outBuf = a.outBuf := rfl
@[simp] theorem stepDesKs_dout (r : Fin 16) (a : Avce) : (stepDesKs r a).dout = a.dout := rfl
@[simp] theorem stepDesKs_traceLen (r : Fin 16) (a : Avce) : (stepDesKs r a).traceLen = a.traceLen := rfl
@[simp] theorem stepDesKs_trace (r : Fin 16) (a : Avce) : (stepDesKs r a).trace =
      traceIf a (desKeyOffset (r.val + 1)) (desKeyRecord (r.val + 1) a.c a.d (rotl a.c (shiftAmount (r.val + 1)))
        (rotl a.d (shiftAmount (r.val + 1)))
        (subkeyOf (rotl a.c (shiftAmount (r.val + 1))) (rotl a.d (shiftAmount (r.val + 1))))) := rfl
@[simp] theorem stepDesKs_seq (r : Fin 16) (a : Avce) : (stepDesKs r a).seq =
      if h : r.val + 1 < 16 then .desKs ⟨r.val + 1, h⟩ else .desIp := rfl
@[simp] theorem stepDesKs_cmdr (r : Fin 16) (a : Avce) : (stepDesKs r a).cmdr = a.cmdr := rfl
@[simp] theorem stepDesKs_dkey (r : Fin 16) (a : Avce) : (stepDesKs r a).dkey = a.dkey := rfl
@[simp] theorem stepDesKs_dtext (r : Fin 16) (a : Avce) : (stepDesKs r a).dtext = a.dtext := rfl
@[simp] theorem stepDesKs_akey (r : Fin 16) (a : Avce) : (stepDesKs r a).akey = a.akey := rfl
@[simp] theorem stepDesKs_atext (r : Fin 16) (a : Avce) : (stepDesKs r a).atext = a.atext := rfl
@[simp] theorem stepDesKs_c (r : Fin 16) (a : Avce) : (stepDesKs r a).c = rotl a.c (shiftAmount (r.val + 1)) := rfl
@[simp] theorem stepDesKs_d (r : Fin 16) (a : Avce) : (stepDesKs r a).d = rotl a.d (shiftAmount (r.val + 1)) := rfl
@[simp] theorem stepDesKs_l (r : Fin 16) (a : Avce) : (stepDesKs r a).l = a.l := rfl
@[simp] theorem stepDesKs_r (r : Fin 16) (a : Avce) : (stepDesKs r a).r = a.r := rfl
@[simp] theorem stepDesKs_k (r : Fin 16) (a : Avce) : (stepDesKs r a).k =
      a.k.set r (subkeyOf (rotl a.c (shiftAmount (r.val + 1))) (rotl a.d (shiftAmount (r.val + 1)))) := rfl
@[simp] theorem stepDesKs_st (r : Fin 16) (a : Avce) : (stepDesKs r a).st = a.st := rfl
@[simp] theorem stepDesKs_w (r : Fin 16) (a : Avce) : (stepDesKs r a).w = a.w := rfl

@[simp] theorem stepDesIp_cmd (a : Avce) : (stepDesIp a).cmd = a.cmd := rfl
@[simp] theorem stepDesIp_busy (a : Avce) : (stepDesIp a).busy = a.busy := rfl
@[simp] theorem stepDesIp_done (a : Avce) : (stepDesIp a).done = a.done := rfl
@[simp] theorem stepDesIp_ok (a : Avce) : (stepDesIp a).ok = a.ok := rfl
@[simp] theorem stepDesIp_errinfo (a : Avce) : (stepDesIp a).errinfo = a.errinfo := rfl
@[simp] theorem stepDesIp_textLen (a : Avce) : (stepDesIp a).textLen = a.textLen := rfl
@[simp] theorem stepDesIp_keyLen (a : Avce) : (stepDesIp a).keyLen = a.keyLen := rfl
@[simp] theorem stepDesIp_textBuf (a : Avce) : (stepDesIp a).textBuf = a.textBuf := rfl
@[simp] theorem stepDesIp_keyBuf (a : Avce) : (stepDesIp a).keyBuf = a.keyBuf := rfl
@[simp] theorem stepDesIp_outLen (a : Avce) : (stepDesIp a).outLen = a.outLen := rfl
@[simp] theorem stepDesIp_outBuf (a : Avce) : (stepDesIp a).outBuf = a.outBuf := rfl
@[simp] theorem stepDesIp_dout (a : Avce) : (stepDesIp a).dout = a.dout := rfl
@[simp] theorem stepDesIp_traceLen (a : Avce) : (stepDesIp a).traceLen = a.traceLen := rfl
@[simp] theorem stepDesIp_trace (a : Avce) : (stepDesIp a).trace =
      traceIf a 7 [(dataHalves (perm 64 ipTable a.dtext)).1, (dataHalves (perm 64 ipTable a.dtext)).2] := rfl
@[simp] theorem stepDesIp_seq (a : Avce) : (stepDesIp a).seq = .desRnd 0 := rfl
@[simp] theorem stepDesIp_cmdr (a : Avce) : (stepDesIp a).cmdr = a.cmdr := rfl
@[simp] theorem stepDesIp_dkey (a : Avce) : (stepDesIp a).dkey = a.dkey := rfl
@[simp] theorem stepDesIp_dtext (a : Avce) : (stepDesIp a).dtext = a.dtext := rfl
@[simp] theorem stepDesIp_akey (a : Avce) : (stepDesIp a).akey = a.akey := rfl
@[simp] theorem stepDesIp_atext (a : Avce) : (stepDesIp a).atext = a.atext := rfl
@[simp] theorem stepDesIp_c (a : Avce) : (stepDesIp a).c = a.c := rfl
@[simp] theorem stepDesIp_d (a : Avce) : (stepDesIp a).d = a.d := rfl
@[simp] theorem stepDesIp_l (a : Avce) : (stepDesIp a).l = (dataHalves (perm 64 ipTable a.dtext)).1 := rfl
@[simp] theorem stepDesIp_r (a : Avce) : (stepDesIp a).r = (dataHalves (perm 64 ipTable a.dtext)).2 := rfl
@[simp] theorem stepDesIp_k (a : Avce) : (stepDesIp a).k = a.k := rfl
@[simp] theorem stepDesIp_st (a : Avce) : (stepDesIp a).st = a.st := rfl
@[simp] theorem stepDesIp_w (a : Avce) : (stepDesIp a).w = a.w := rfl

@[simp] theorem stepDesRnd_cmd (r : Fin 16) (a : Avce) : (stepDesRnd r a).cmd = a.cmd := rfl
@[simp] theorem stepDesRnd_busy (r : Fin 16) (a : Avce) : (stepDesRnd r a).busy = a.busy := rfl
@[simp] theorem stepDesRnd_done (r : Fin 16) (a : Avce) : (stepDesRnd r a).done = a.done := rfl
@[simp] theorem stepDesRnd_ok (r : Fin 16) (a : Avce) : (stepDesRnd r a).ok = a.ok := rfl
@[simp] theorem stepDesRnd_errinfo (r : Fin 16) (a : Avce) : (stepDesRnd r a).errinfo = a.errinfo := rfl
@[simp] theorem stepDesRnd_textLen (r : Fin 16) (a : Avce) : (stepDesRnd r a).textLen = a.textLen := rfl
@[simp] theorem stepDesRnd_keyLen (r : Fin 16) (a : Avce) : (stepDesRnd r a).keyLen = a.keyLen := rfl
@[simp] theorem stepDesRnd_textBuf (r : Fin 16) (a : Avce) : (stepDesRnd r a).textBuf = a.textBuf := rfl
@[simp] theorem stepDesRnd_keyBuf (r : Fin 16) (a : Avce) : (stepDesRnd r a).keyBuf = a.keyBuf := rfl
@[simp] theorem stepDesRnd_outLen (r : Fin 16) (a : Avce) : (stepDesRnd r a).outLen = a.outLen := rfl
@[simp] theorem stepDesRnd_outBuf (r : Fin 16) (a : Avce) : (stepDesRnd r a).outBuf = a.outBuf := rfl
@[simp] theorem stepDesRnd_dout (r : Fin 16) (a : Avce) : (stepDesRnd r a).dout = a.dout := rfl
@[simp] theorem stepDesRnd_traceLen (r : Fin 16) (a : Avce) : (stepDesRnd r a).traceLen = a.traceLen := rfl
@[simp] theorem stepDesRnd_trace (r : Fin 16) (a : Avce) : (stepDesRnd r a).trace =
      traceIf a (desRoundOffset (r.val + 1))
        (desRoundRecord (r.val + 1) (kidx a.cmdr.dec (r.val + 1)) a.l a.r (roundSubkey r a)) := rfl
@[simp] theorem stepDesRnd_seq (r : Fin 16) (a : Avce) : (stepDesRnd r a).seq =
      if h : r.val + 1 < 16 then .desRnd ⟨r.val + 1, h⟩ else .desFp := rfl
@[simp] theorem stepDesRnd_cmdr (r : Fin 16) (a : Avce) : (stepDesRnd r a).cmdr = a.cmdr := rfl
@[simp] theorem stepDesRnd_dkey (r : Fin 16) (a : Avce) : (stepDesRnd r a).dkey = a.dkey := rfl
@[simp] theorem stepDesRnd_dtext (r : Fin 16) (a : Avce) : (stepDesRnd r a).dtext = a.dtext := rfl
@[simp] theorem stepDesRnd_akey (r : Fin 16) (a : Avce) : (stepDesRnd r a).akey = a.akey := rfl
@[simp] theorem stepDesRnd_atext (r : Fin 16) (a : Avce) : (stepDesRnd r a).atext = a.atext := rfl
@[simp] theorem stepDesRnd_c (r : Fin 16) (a : Avce) : (stepDesRnd r a).c = a.c := rfl
@[simp] theorem stepDesRnd_d (r : Fin 16) (a : Avce) : (stepDesRnd r a).d = a.d := rfl
@[simp] theorem stepDesRnd_l (r : Fin 16) (a : Avce) : (stepDesRnd r a).l =
      (desRound (r.val + 1) (a.l, a.r) (roundSubkey r a)).1 := rfl
@[simp] theorem stepDesRnd_r (r : Fin 16) (a : Avce) : (stepDesRnd r a).r =
      (desRound (r.val + 1) (a.l, a.r) (roundSubkey r a)).2 := rfl
@[simp] theorem stepDesRnd_k (r : Fin 16) (a : Avce) : (stepDesRnd r a).k = a.k := rfl
@[simp] theorem stepDesRnd_st (r : Fin 16) (a : Avce) : (stepDesRnd r a).st = a.st := rfl
@[simp] theorem stepDesRnd_w (r : Fin 16) (a : Avce) : (stepDesRnd r a).w = a.w := rfl

@[simp] theorem stepDesFp_cmd (a : Avce) : (stepDesFp a).cmd = a.cmd := rfl
@[simp] theorem stepDesFp_busy (a : Avce) : (stepDesFp a).busy = false := rfl
@[simp] theorem stepDesFp_done (a : Avce) : (stepDesFp a).done = true := rfl
@[simp] theorem stepDesFp_ok (a : Avce) : (stepDesFp a).ok = true := rfl
@[simp] theorem stepDesFp_errinfo (a : Avce) : (stepDesFp a).errinfo = a.errinfo := rfl
@[simp] theorem stepDesFp_textLen (a : Avce) : (stepDesFp a).textLen = a.textLen := rfl
@[simp] theorem stepDesFp_keyLen (a : Avce) : (stepDesFp a).keyLen = a.keyLen := rfl
@[simp] theorem stepDesFp_textBuf (a : Avce) : (stepDesFp a).textBuf = a.textBuf := rfl
@[simp] theorem stepDesFp_keyBuf (a : Avce) : (stepDesFp a).keyBuf = a.keyBuf := rfl
@[simp] theorem stepDesFp_outLen (a : Avce) : (stepDesFp a).outLen = 16 := rfl
@[simp] theorem stepDesFp_outBuf (a : Avce) : (stepDesFp a).outBuf =
      putDigits 16 (finalPerm a.l a.r) a.outBuf := rfl
@[simp] theorem stepDesFp_dout (a : Avce) : (stepDesFp a).dout =
      #v[hiWord (finalPerm a.l a.r), loWord (finalPerm a.l a.r), 0, 0] := rfl
@[simp] theorem stepDesFp_traceLen (a : Avce) : (stepDesFp a).traceLen = if a.cmdr.trc then 400 else 0 := rfl
@[simp] theorem stepDesFp_trace (a : Avce) : (stepDesFp a).trace =
      traceIf a 9 [a.l, a.r, hiWord (finalPerm a.l a.r), loWord (finalPerm a.l a.r)] := rfl
@[simp] theorem stepDesFp_seq (a : Avce) : (stepDesFp a).seq = .idle := rfl
@[simp] theorem stepDesFp_cmdr (a : Avce) : (stepDesFp a).cmdr = a.cmdr := rfl
@[simp] theorem stepDesFp_dkey (a : Avce) : (stepDesFp a).dkey = a.dkey := rfl
@[simp] theorem stepDesFp_dtext (a : Avce) : (stepDesFp a).dtext = a.dtext := rfl
@[simp] theorem stepDesFp_akey (a : Avce) : (stepDesFp a).akey = a.akey := rfl
@[simp] theorem stepDesFp_atext (a : Avce) : (stepDesFp a).atext = a.atext := rfl
@[simp] theorem stepDesFp_c (a : Avce) : (stepDesFp a).c = a.c := rfl
@[simp] theorem stepDesFp_d (a : Avce) : (stepDesFp a).d = a.d := rfl
@[simp] theorem stepDesFp_l (a : Avce) : (stepDesFp a).l = a.l := rfl
@[simp] theorem stepDesFp_r (a : Avce) : (stepDesFp a).r = a.r := rfl
@[simp] theorem stepDesFp_k (a : Avce) : (stepDesFp a).k = a.k := rfl
@[simp] theorem stepDesFp_st (a : Avce) : (stepDesFp a).st = a.st := rfl
@[simp] theorem stepDesFp_w (a : Avce) : (stepDesFp a).w = a.w := rfl

@[simp] theorem stepAesKx_cmd (i : Fin 44) (a : Avce) : (stepAesKx i a).cmd = a.cmd := rfl
@[simp] theorem stepAesKx_busy (i : Fin 44) (a : Avce) : (stepAesKx i a).busy = a.busy := rfl
@[simp] theorem stepAesKx_done (i : Fin 44) (a : Avce) : (stepAesKx i a).done = a.done := rfl
@[simp] theorem stepAesKx_ok (i : Fin 44) (a : Avce) : (stepAesKx i a).ok = a.ok := rfl
@[simp] theorem stepAesKx_errinfo (i : Fin 44) (a : Avce) : (stepAesKx i a).errinfo = a.errinfo := rfl
@[simp] theorem stepAesKx_textLen (i : Fin 44) (a : Avce) : (stepAesKx i a).textLen = a.textLen := rfl
@[simp] theorem stepAesKx_keyLen (i : Fin 44) (a : Avce) : (stepAesKx i a).keyLen = a.keyLen := rfl
@[simp] theorem stepAesKx_textBuf (i : Fin 44) (a : Avce) : (stepAesKx i a).textBuf = a.textBuf := rfl
@[simp] theorem stepAesKx_keyBuf (i : Fin 44) (a : Avce) : (stepAesKx i a).keyBuf = a.keyBuf := rfl
@[simp] theorem stepAesKx_outLen (i : Fin 44) (a : Avce) : (stepAesKx i a).outLen = a.outLen := rfl
@[simp] theorem stepAesKx_outBuf (i : Fin 44) (a : Avce) : (stepAesKx i a).outBuf = a.outBuf := rfl
@[simp] theorem stepAesKx_dout (i : Fin 44) (a : Avce) : (stepAesKx i a).dout = a.dout := rfl
@[simp] theorem stepAesKx_traceLen (i : Fin 44) (a : Avce) : (stepAesKx i a).traceLen = a.traceLen := rfl
@[simp] theorem stepAesKx_trace (i : Fin 44) (a : Avce) : (stepAesKx i a).trace =
      if i.val = 0 then
        traceIf a 0 (aesHeader a.cmd a.akey a.atext ++ aesKeyRecord i.val (prevWord a.w i) (expandWord a.akey a.w i))
      else traceIf a (aesKeyOffset i.val) (aesKeyRecord i.val (prevWord a.w i) (expandWord a.akey a.w i)) := rfl
@[simp] theorem stepAesKx_seq (i : Fin 44) (a : Avce) : (stepAesKx i a).seq =
      if h : i.val + 1 < 44 then .aesKx ⟨i.val + 1, h⟩ else .aesArk0 := rfl
@[simp] theorem stepAesKx_cmdr (i : Fin 44) (a : Avce) : (stepAesKx i a).cmdr = a.cmdr := rfl
@[simp] theorem stepAesKx_dkey (i : Fin 44) (a : Avce) : (stepAesKx i a).dkey = a.dkey := rfl
@[simp] theorem stepAesKx_dtext (i : Fin 44) (a : Avce) : (stepAesKx i a).dtext = a.dtext := rfl
@[simp] theorem stepAesKx_akey (i : Fin 44) (a : Avce) : (stepAesKx i a).akey = a.akey := rfl
@[simp] theorem stepAesKx_atext (i : Fin 44) (a : Avce) : (stepAesKx i a).atext = a.atext := rfl
@[simp] theorem stepAesKx_c (i : Fin 44) (a : Avce) : (stepAesKx i a).c = a.c := rfl
@[simp] theorem stepAesKx_d (i : Fin 44) (a : Avce) : (stepAesKx i a).d = a.d := rfl
@[simp] theorem stepAesKx_l (i : Fin 44) (a : Avce) : (stepAesKx i a).l = a.l := rfl
@[simp] theorem stepAesKx_r (i : Fin 44) (a : Avce) : (stepAesKx i a).r = a.r := rfl
@[simp] theorem stepAesKx_k (i : Fin 44) (a : Avce) : (stepAesKx i a).k = a.k := rfl
@[simp] theorem stepAesKx_st (i : Fin 44) (a : Avce) : (stepAesKx i a).st = a.st := rfl
@[simp] theorem stepAesKx_w (i : Fin 44) (a : Avce) : (stepAesKx i a).w = a.w.set i (expandWord a.akey a.w i) := rfl

@[simp] theorem stepAesArk0_cmd (a : Avce) : (stepAesArk0 a).cmd = a.cmd := rfl
@[simp] theorem stepAesArk0_busy (a : Avce) : (stepAesArk0 a).busy = a.busy := rfl
@[simp] theorem stepAesArk0_done (a : Avce) : (stepAesArk0 a).done = a.done := rfl
@[simp] theorem stepAesArk0_ok (a : Avce) : (stepAesArk0 a).ok = a.ok := rfl
@[simp] theorem stepAesArk0_errinfo (a : Avce) : (stepAesArk0 a).errinfo = a.errinfo := rfl
@[simp] theorem stepAesArk0_textLen (a : Avce) : (stepAesArk0 a).textLen = a.textLen := rfl
@[simp] theorem stepAesArk0_keyLen (a : Avce) : (stepAesArk0 a).keyLen = a.keyLen := rfl
@[simp] theorem stepAesArk0_textBuf (a : Avce) : (stepAesArk0 a).textBuf = a.textBuf := rfl
@[simp] theorem stepAesArk0_keyBuf (a : Avce) : (stepAesArk0 a).keyBuf = a.keyBuf := rfl
@[simp] theorem stepAesArk0_outLen (a : Avce) : (stepAesArk0 a).outLen = a.outLen := rfl
@[simp] theorem stepAesArk0_outBuf (a : Avce) : (stepAesArk0 a).outBuf = a.outBuf := rfl
@[simp] theorem stepAesArk0_dout (a : Avce) : (stepAesArk0 a).dout = a.dout := rfl
@[simp] theorem stepAesArk0_traceLen (a : Avce) : (stepAesArk0 a).traceLen = a.traceLen := rfl
@[simp] theorem stepAesArk0_trace (a : Avce) : (stepAesArk0 a).trace =
      traceIf a (aesRoundOffset 0)
        (if a.cmdr.dec then aesDecRecordZero a.atext (roundKeyFor a 0) (xorBlock a.atext (roundKeyFor a 0))
          else aesEncRecordZero a.atext (roundKeyFor a 0) (xorBlock a.atext (roundKeyFor a 0))) := rfl
@[simp] theorem stepAesArk0_seq (a : Avce) : (stepAesArk0 a).seq = .aesRnd 0 := rfl
@[simp] theorem stepAesArk0_cmdr (a : Avce) : (stepAesArk0 a).cmdr = a.cmdr := rfl
@[simp] theorem stepAesArk0_dkey (a : Avce) : (stepAesArk0 a).dkey = a.dkey := rfl
@[simp] theorem stepAesArk0_dtext (a : Avce) : (stepAesArk0 a).dtext = a.dtext := rfl
@[simp] theorem stepAesArk0_akey (a : Avce) : (stepAesArk0 a).akey = a.akey := rfl
@[simp] theorem stepAesArk0_atext (a : Avce) : (stepAesArk0 a).atext = a.atext := rfl
@[simp] theorem stepAesArk0_c (a : Avce) : (stepAesArk0 a).c = a.c := rfl
@[simp] theorem stepAesArk0_d (a : Avce) : (stepAesArk0 a).d = a.d := rfl
@[simp] theorem stepAesArk0_l (a : Avce) : (stepAesArk0 a).l = a.l := rfl
@[simp] theorem stepAesArk0_r (a : Avce) : (stepAesArk0 a).r = a.r := rfl
@[simp] theorem stepAesArk0_k (a : Avce) : (stepAesArk0 a).k = a.k := rfl
@[simp] theorem stepAesArk0_st (a : Avce) : (stepAesArk0 a).st = xorBlock a.atext (roundKeyFor a 0) := rfl
@[simp] theorem stepAesArk0_w (a : Avce) : (stepAesArk0 a).w = a.w := rfl

@[simp] theorem stepAesRnd_cmd (r : Fin 10) (a : Avce) : (stepAesRnd r a).cmd = a.cmd := rfl
@[simp] theorem stepAesRnd_busy (r : Fin 10) (a : Avce) : (stepAesRnd r a).busy = a.busy := rfl
@[simp] theorem stepAesRnd_done (r : Fin 10) (a : Avce) : (stepAesRnd r a).done = a.done := rfl
@[simp] theorem stepAesRnd_ok (r : Fin 10) (a : Avce) : (stepAesRnd r a).ok = a.ok := rfl
@[simp] theorem stepAesRnd_errinfo (r : Fin 10) (a : Avce) : (stepAesRnd r a).errinfo = a.errinfo := rfl
@[simp] theorem stepAesRnd_textLen (r : Fin 10) (a : Avce) : (stepAesRnd r a).textLen = a.textLen := rfl
@[simp] theorem stepAesRnd_keyLen (r : Fin 10) (a : Avce) : (stepAesRnd r a).keyLen = a.keyLen := rfl
@[simp] theorem stepAesRnd_textBuf (r : Fin 10) (a : Avce) : (stepAesRnd r a).textBuf = a.textBuf := rfl
@[simp] theorem stepAesRnd_keyBuf (r : Fin 10) (a : Avce) : (stepAesRnd r a).keyBuf = a.keyBuf := rfl
@[simp] theorem stepAesRnd_outLen (r : Fin 10) (a : Avce) : (stepAesRnd r a).outLen = a.outLen := rfl
@[simp] theorem stepAesRnd_outBuf (r : Fin 10) (a : Avce) : (stepAesRnd r a).outBuf = a.outBuf := rfl
@[simp] theorem stepAesRnd_dout (r : Fin 10) (a : Avce) : (stepAesRnd r a).dout = a.dout := rfl
@[simp] theorem stepAesRnd_traceLen (r : Fin 10) (a : Avce) : (stepAesRnd r a).traceLen = a.traceLen := rfl
@[simp] theorem stepAesRnd_trace (r : Fin 10) (a : Avce) : (stepAesRnd r a).trace =
      traceIf a (aesRoundOffset (r.val + 1))
        (if a.cmdr.dec then aesDecRecord (r.val + 1) a.st (roundKeyFor a r.succ)
          else aesEncRecord (r.val + 1) a.st (roundKeyFor a r.succ)) := rfl
@[simp] theorem stepAesRnd_seq (r : Fin 10) (a : Avce) : (stepAesRnd r a).seq =
      if h : r.val + 1 < 10 then .aesRnd ⟨r.val + 1, h⟩ else .aesOut := rfl
@[simp] theorem stepAesRnd_cmdr (r : Fin 10) (a : Avce) : (stepAesRnd r a).cmdr = a.cmdr := rfl
@[simp] theorem stepAesRnd_dkey (r : Fin 10) (a : Avce) : (stepAesRnd r a).dkey = a.dkey := rfl
@[simp] theorem stepAesRnd_dtext (r : Fin 10) (a : Avce) : (stepAesRnd r a).dtext = a.dtext := rfl
@[simp] theorem stepAesRnd_akey (r : Fin 10) (a : Avce) : (stepAesRnd r a).akey = a.akey := rfl
@[simp] theorem stepAesRnd_atext (r : Fin 10) (a : Avce) : (stepAesRnd r a).atext = a.atext := rfl
@[simp] theorem stepAesRnd_c (r : Fin 10) (a : Avce) : (stepAesRnd r a).c = a.c := rfl
@[simp] theorem stepAesRnd_d (r : Fin 10) (a : Avce) : (stepAesRnd r a).d = a.d := rfl
@[simp] theorem stepAesRnd_l (r : Fin 10) (a : Avce) : (stepAesRnd r a).l = a.l := rfl
@[simp] theorem stepAesRnd_r (r : Fin 10) (a : Avce) : (stepAesRnd r a).r = a.r := rfl
@[simp] theorem stepAesRnd_k (r : Fin 10) (a : Avce) : (stepAesRnd r a).k = a.k := rfl
@[simp] theorem stepAesRnd_st (r : Fin 10) (a : Avce) : (stepAesRnd r a).st =
      if a.cmdr.dec then aesDecRound (r.val + 1) a.st (roundKeyFor a r.succ)
        else aesEncRound (r.val + 1) a.st (roundKeyFor a r.succ) := rfl
@[simp] theorem stepAesRnd_w (r : Fin 10) (a : Avce) : (stepAesRnd r a).w = a.w := rfl

@[simp] theorem stepAesOut_cmd (a : Avce) : (stepAesOut a).cmd = a.cmd := rfl
@[simp] theorem stepAesOut_busy (a : Avce) : (stepAesOut a).busy = false := rfl
@[simp] theorem stepAesOut_done (a : Avce) : (stepAesOut a).done = true := rfl
@[simp] theorem stepAesOut_ok (a : Avce) : (stepAesOut a).ok = true := rfl
@[simp] theorem stepAesOut_errinfo (a : Avce) : (stepAesOut a).errinfo = a.errinfo := rfl
@[simp] theorem stepAesOut_textLen (a : Avce) : (stepAesOut a).textLen = a.textLen := rfl
@[simp] theorem stepAesOut_keyLen (a : Avce) : (stepAesOut a).keyLen = a.keyLen := rfl
@[simp] theorem stepAesOut_textBuf (a : Avce) : (stepAesOut a).textBuf = a.textBuf := rfl
@[simp] theorem stepAesOut_keyBuf (a : Avce) : (stepAesOut a).keyBuf = a.keyBuf := rfl
@[simp] theorem stepAesOut_outLen (a : Avce) : (stepAesOut a).outLen = 32 := rfl
@[simp] theorem stepAesOut_outBuf (a : Avce) : (stepAesOut a).outBuf = putDigits 32 (blockBits a.st) a.outBuf := rfl
@[simp] theorem stepAesOut_dout (a : Avce) : (stepAesOut a).dout =
      #v[blockWord a.st 0, blockWord a.st 1, blockWord a.st 2, blockWord a.st 3] := rfl
@[simp] theorem stepAesOut_traceLen (a : Avce) : (stepAesOut a).traceLen = if a.cmdr.trc then 720 else 0 := rfl
@[simp] theorem stepAesOut_trace (a : Avce) : (stepAesOut a).trace = traceIf a 9 (blockWords a.st) := rfl
@[simp] theorem stepAesOut_seq (a : Avce) : (stepAesOut a).seq = .idle := rfl
@[simp] theorem stepAesOut_cmdr (a : Avce) : (stepAesOut a).cmdr = a.cmdr := rfl
@[simp] theorem stepAesOut_dkey (a : Avce) : (stepAesOut a).dkey = a.dkey := rfl
@[simp] theorem stepAesOut_dtext (a : Avce) : (stepAesOut a).dtext = a.dtext := rfl
@[simp] theorem stepAesOut_akey (a : Avce) : (stepAesOut a).akey = a.akey := rfl
@[simp] theorem stepAesOut_atext (a : Avce) : (stepAesOut a).atext = a.atext := rfl
@[simp] theorem stepAesOut_c (a : Avce) : (stepAesOut a).c = a.c := rfl
@[simp] theorem stepAesOut_d (a : Avce) : (stepAesOut a).d = a.d := rfl
@[simp] theorem stepAesOut_l (a : Avce) : (stepAesOut a).l = a.l := rfl
@[simp] theorem stepAesOut_r (a : Avce) : (stepAesOut a).r = a.r := rfl
@[simp] theorem stepAesOut_k (a : Avce) : (stepAesOut a).k = a.k := rfl
@[simp] theorem stepAesOut_st (a : Avce) : (stepAesOut a).st = a.st := rfl
@[simp] theorem stepAesOut_w (a : Avce) : (stepAesOut a).w = a.w := rfl

end Sys2Proof.Machine
end

