-- ==== Sys2Proof/Laws/Step.lean ====
section
/-! SUPPORT. What a START, a host write, an event, an engine step and a step of the machine can do, said once. -/

namespace Sys2Proof.Machine

/-- A START of a DES command: ignored while BUSY, a FormatError, or a passing START (R93, R94). -/
theorem startDes_cases (v : Word) (dec trc : Bool) (a : Avce) :
    (a.busy = true ∧ startDes v dec trc a = a) ∨
    (∃ sub index, a.busy = false ∧ operandFault needDes a = some (sub, index) ∧
      startDes v dec trc a = raiseError .formatError sub index (clearForStart v a)) ∨
    (a.busy = false ∧ OperandsValid needDes a ∧
      startDes v dec trc a = latchDes dec trc (clearForStart v a)) := by
  unfold startDes
  cases hb : a.busy with
  | true => simp
  | false =>
    cases hf : operandFault needDes a with
    | none =>
      have := (operandFault_none_iff needDes (by decide) a).mp hf
      simp [this]
    | some e =>
      refine .inr (.inl ⟨e.1, e.2, rfl, rfl, ?_⟩)
      simp

/-- A START of an AES command: ignored while BUSY, a FormatError, or a passing START (R93, R94). -/
theorem startAes_cases (v : Word) (dec trc : Bool) (a : Avce) :
    (a.busy = true ∧ startAes v dec trc a = a) ∨
    (∃ sub index, a.busy = false ∧ operandFault needAes a = some (sub, index) ∧
      startAes v dec trc a = raiseError .formatError sub index (clearForStart v a)) ∨
    (a.busy = false ∧ OperandsValid needAes a ∧
      startAes v dec trc a = latchAes dec trc (clearForStart v a)) := by
  unfold startAes
  cases hb : a.busy with
  | true => simp
  | false =>
    cases hf : operandFault needAes a with
    | none =>
      have := (operandFault_none_iff needAes (by decide) a).mp hf
      simp [this]
    | some e =>
      refine .inr (.inl ⟨e.1, e.2, rfl, rfl, ?_⟩)
      simp

/-- What the command `i` does to the registers. -/
def startOf (i : Instr) (a : Avce) : Avce :=
  match i with
  | .desEnc => startDes (encode .desEnc) false false a
  | .desDec => startDes (encode .desDec) true false a
  | .desEncT => startDes (encode .desEncT) false true a
  | .desDecT => startDes (encode .desDecT) true true a
  | .aesEnc => startAes (encode .aesEnc) false false a
  | .aesDec => startAes (encode .aesDec) true false a
  | .aesEncT => startAes (encode .aesEncT) false true a
  | .aesDecT => startAes (encode .aesDecT) true true a

/-- Every command answers a next state, in which only the registers of AVCE differ. -/
theorem exec_eq (i : Instr) (s : State) : exec i s = .next { s with avce := startOf i s.avce } := by
  cases i <;> rfl

/-- A host write: dropped while BUSY, a START, the rejection of a word, or a write of another register. -/
theorem hostWrite_cases (n : RegNo) (v : Word) (s : State) :
    (s.avce.busy = true ∧ hostWrite n v s = .next s) ∨
    (∃ i, s.avce.busy = false ∧ regName n = .cmd ∧ decode v = .command i ∧
      hostWrite n v s = .next { s with avce := startOf i s.avce }) ∨
    (∃ e, s.avce.busy = false ∧ regName n = .cmd ∧ decode v = .rejected e ∧
      hostWrite n v s = .next { s with avce := startRejected v e s.avce }) ∨
    (s.avce.busy = false ∧ regName n ≠ .cmd ∧
      hostWrite n v s = .next { s with avce := writeReg s.avce v (regName n) }) := by
  unfold hostWrite startWord
  cases hb : s.avce.busy with
  | true => simp
  | false =>
    by_cases hn : regName n = .cmd
    · cases hd : decode v with
      | command i => simp [hn, exec_eq]
      | rejected e => simp [hn]
    · simp [hn]

/-- One event: what each of the five kinds does. -/
theorem runEvent_cases (e : Event) (s : State) :
    (∃ n, e = .rd n ∧ runEvent e s = .next { s with rdata := hostRead s.avce n }) ∨
    (∃ n v, e = .wr n v ∧ runEvent e s = hostWrite n v s) ∨
    (e = .poll ∧ runEvent e s = .next (pollOnce s)) ∨
    (e = .reset ∧ runEvent e s = .next { s with avce := Avce.reset }) ∨
    (e = .engine ∧ runEvent e s = .next { s with avce := engineStep s.avce }) := by
  cases e <;> simp [runEvent]

@[simp] theorem pollOnce_avce (s : State) : (pollOnce s).avce = s.avce := by
  unfold pollOnce
  dsimp only
  split <;> rfl

/-- A step changes the registers of AVCE in one of these ways and in no other. -/
theorem step_avce_cases {s t : State} (h : step s = .next t) :
    t.avce = s.avce ∨ t.avce = engineStep s.avce ∨ t.avce = Avce.reset ∨
    (∃ i, s.avce.busy = false ∧ t.avce = startOf i s.avce) ∨
    (∃ v e, s.avce.busy = false ∧ decode v = .rejected e ∧ t.avce = startRejected v e s.avce) ∨
    (∃ v n, s.avce.busy = false ∧ n ≠ .cmd ∧ t.avce = writeReg s.avce v n) := by
  unfold step takeStep at h
  cases hs : s.schedule with
  | nil =>
    rw [hs] at h
    injection h with h
    subst h
    exact .inr (.inl rfl)
  | cons e rest =>
    rw [hs] at h
    dsimp only at h
    rcases runEvent_cases e { s with schedule := rest } with ⟨n, -, he⟩ | ⟨n, v, -, he⟩ | ⟨-, he⟩ | ⟨-, he⟩ | ⟨-, he⟩
    · rw [he] at h
      injection h with h
      subst h
      exact .inl rfl
    · rw [he] at h
      rcases hostWrite_cases n v { s with schedule := rest } with
        ⟨hb, hw⟩ | ⟨i, hb, -, -, hw⟩ | ⟨d, hb, -, hd, hw⟩ | ⟨hb, hn, hw⟩ <;> rw [hw] at h <;> injection h with h <;>
        subst h
      · exact .inl rfl
      · exact .inr (.inr (.inr (.inl ⟨i, hb, rfl⟩)))
      · exact .inr (.inr (.inr (.inr (.inl ⟨v, d, hb, hd, rfl⟩))))
      · exact .inr (.inr (.inr (.inr (.inr ⟨v, regName n, hb, hn, rfl⟩))))
    · rw [he] at h
      injection h with h
      subst h
      exact .inl (pollOnce_avce _)
    · rw [he] at h
      injection h with h
      subst h
      exact .inr (.inr (.inl rfl))
    · rw [he] at h
      injection h with h
      subst h
      exact .inr (.inl rfl)

/-- An invariant of the registers that reset has and that every way of changing them keeps is kept by every step. -/
theorem step_keeps {P : Avce → Prop} (hreset : P Avce.reset) (hengine : ∀ a, P a → P (engineStep a))
    (hstart : ∀ i a, a.busy = false → P a → P (startOf i a))
    (hreject : ∀ v e a, a.busy = false → decode v = .rejected e → P a → P (startRejected v e a))
    (hwrite : ∀ v n a, a.busy = false → n ≠ .cmd → P a → P (writeReg a v n))
    {s t : State} (hs : P s.avce) (h : step s = .next t) : P t.avce := by
  rcases step_avce_cases h with he | he | he | ⟨i, hb, he⟩ | ⟨v, e, hb, hd, he⟩ | ⟨v, n, hb, hn, he⟩ <;> rw [he]
  · exact hs
  · exact hengine _ hs
  · exact hreset
  · exact hstart i _ hb hs
  · exact hreject v e _ hb hd hs
  · exact hwrite v n _ hb hn hs

/-- A run of `n + 1` steps is one step and a run of `n`. -/
theorem core_run_succ (n : Nat) (s t : State) (h : step s = .next t) : core.run (n + 1) s = core.run n t := by
  have h' : core.step s = .next t := h
  simp only [Host.Core.run, h']

end Sys2Proof.Machine
end

