-- ==== Sys2Proof/Tests/Slice0.lean ====
section
/-! SUPPORT. Small tests.  Every expected value is copied from spec/ (95_test_vectors.md, and the tables and
examples of the rules), never from the model.  The second half holds one witness for the hypotheses of each
statement of Certificates/Slice0/Obligations.lean. -/

namespace Sys2Proof.Tests

open Sys2Proof Sys2Proof.Machine

-- One theorem after another: each `decide +kernel` waits for the theorems before it, and with all of them started at
-- once every waiting one holds a thread of its own.
set_option Elab.async false

/-! ### Helpers -/

/-- The codes of the `n` hex digits of `v`, upper case (R100, by hand). -/
def hexChars (n v : Nat) : List Word :=
  (List.range n).map fun i =>
    let d := v / 16 ^ (n - 1 - i) % 16
    BitVec.ofNat 32 (if d < 10 then 0x30 + d else 0x41 + d - 10)

/-- A buffer that holds the characters `cs` and zeros behind them. -/
def buffer (cs : List Word) : Vector Word 32 := Vector.ofFn fun i => cs.getD i.val 0

/-- AVCE after reset and the writes of a text and a key (R96). -/
def loaded (text key : List Word) : State :=
  { State.reset with avce := { Avce.reset with
      textBuf := buffer text, keyBuf := buffer key,
      textLen := BitVec.ofNat 32 text.length, keyLen := BitVec.ofNat 32 key.length } }

/-- The operands of V1. -/
def desReady : State := loaded (hexChars 16 0x0123456789ABCDEF) (hexChars 16 0x133457799BBCDFF1)

/-- The operands of V2. -/
def aesReady : State :=
  loaded (hexChars 32 0x00112233445566778899AABBCCDDEEFF) (hexChars 32 0x000102030405060708090A0B0C0D0E0F)

/-- AVCE at one step of the sequencer, with the command of the word `cmd` in progress. -/
def busyAt (cmd : Word) (alg : BitVec 4) (dec trc : Bool) (seq : Seq) : Avce :=
  { Avce.reset with cmd := cmd, cmdr := ⟨alg, dec, trc⟩, seq := seq, busy := true }

/-- The registers that an outcome leaves. -/
def after (o : Host.Outcome State Fault Refusal) : Avce :=
  match o with
  | .next t => t.avce
  | .fault _ => Avce.reset
  | .refused _ => Avce.reset

/-- The word that a step reads. -/
def readBack (o : Host.Outcome State Fault Refusal) : Word :=
  match o with
  | .next t => t.rdata
  | .fault _ => 0
  | .refused _ => 0

/-! ### Well-formedness: one ill-formed term for each check (R81, R84) -/

theorem test_wf_refuses_algorithm_0 : (CommandFields.mk 0 false false 0).wf = false := by decide
theorem test_wf_refuses_algorithm_3 : (CommandFields.mk 3 true false 0).wf = false := by decide
theorem test_wf_refuses_algorithm_15 : (CommandFields.mk 15 false true 0).wf = false := by decide
theorem test_wf_refuses_reserved_bit_6 : (CommandFields.mk 1 false false 1).wf = false := by decide
theorem test_wf_refuses_reserved_bit_31 : (CommandFields.mk 2 true true 0x2000000).wf = false := by decide
theorem test_wf_of_every_command :
    [Instr.desEnc, .desDec, .desEncT, .desDecT, .aesEnc, .aesDec, .aesEncT, .aesDecT].all Instr.wf = true := by decide

/-! ### Decoding: the eight words, bit by bit (R80, R85), and words that R86 rejects (E13 to E22) -/

theorem test_decode_desEnc : decode 0b00000000000000000000000000000001 = .command .desEnc := by decide
theorem test_decode_desDec : decode 0b00000000000000000000000000010001 = .command .desDec := by decide
theorem test_decode_desEncT : decode 0b00000000000000000000000000100001 = .command .desEncT := by decide
theorem test_decode_desDecT : decode 0b00000000000000000000000000110001 = .command .desDecT := by decide
theorem test_decode_aesEnc : decode 0b00000000000000000000000000000010 = .command .aesEnc := by decide
theorem test_decode_aesDec : decode 0b00000000000000000000000000010010 = .command .aesDec := by decide
theorem test_decode_aesEncT : decode 0b00000000000000000000000000100010 = .command .aesEncT := by decide
theorem test_decode_aesDecT : decode 0b00000000000000000000000000110010 = .command .aesDecT := by decide
theorem test_decode_rejects_algorithm :
    decode 0x00000000 = .rejected .unknownAlgorithm ∧ decode 0x00000003 = .rejected .unknownAlgorithm ∧
    decode 0x0000000F = .rejected .unknownAlgorithm ∧ decode 0x00000005 = .rejected .unknownAlgorithm := by decide
theorem test_decode_tests_algorithm_first :
    decode 0x00000043 = .rejected .unknownAlgorithm ∧ decode 0x00000100 = .rejected .unknownAlgorithm := by decide
theorem test_decode_rejects_reserved :
    decode 0x00000041 = .rejected .reservedBits ∧ decode 0x80000001 = .rejected .reservedBits ∧
    decode 0x00000061 = .rejected .reservedBits := by decide
theorem test_decodeTableWord_reads_only_the_word :
    decodeTableWord 32 0x31 = some .desDecT ∧ decodeTableWord 32 0x100000031 = some .desDecT ∧
    decodeTableWord 40 0x100000031 = none := by decide

/-! ### Primitives (95_test_vectors.md 2.1) -/

theorem test_isHex_of_boundary_codes :
    ([0x30, 0x39, 0x41, 0x46, 0x61, 0x66].all isHex &&
      [0x2F, 0x3A, 0x40, 0x47, 0x60, 0x67, 0x20, 0x00, 0x130, 0x80000030].all (fun c => !isHex c)) = true := by decide
theorem test_hexVal : [0x30, 0x39, 0x41, 0x61, 0x46, 0x66, 0x42, 0x62].map hexVal = [0, 9, 10, 10, 15, 15, 11, 11] := by
  decide
theorem test_hexDec_8F : hexDec 8 [0x38, 0x46] = 0b10001111#8 := by decide
theorem test_hexEnc_0A4C : hexEnc 0x0A4C#16 = [0x30, 0x41, 0x34, 0x43] := by decide
theorem test_hexXor_pads_the_shorter : hexXor [0x46, 0x46] [0x30, 0x46, 0x30, 0x46] = [0x30, 0x46, 0x46, 0x30] := by
  decide
theorem test_bytesOf_order :
    (bytesOf 0x00112233445566778899AABBCCDDEEFF)[1] = 0x11 ∧ (bytesOf 0x00112233445566778899AABBCCDDEEFF)[15] = 0xFF := by
  decide
theorem test_lengthWord_never_wraps :
    lengthWord 32 = 32 ∧ lengthWord 33 = 33 ∧ lengthWord (2 ^ 32 + 16) = 0xFFFFFFFF := by decide
theorem test_rotl :
    rotl 0xF0CCAAF#28 1 = 0xE19955F ∧ rotl 0x0000001#28 2 = 0x0000004 ∧ rotl 0x8000000#28 1 = 0x0000001 ∧
    rotl 0xC000000#28 2 = 0x0000003 := by decide
theorem test_gmul :
    gmul 0x57 0x13 = 0xFE ∧ gmul 0x57 0x83 = 0xC1 ∧ gmul 0x80 0x02 = 0x1B ∧ gmul 0xFF 0xFF = 0x13 ∧
    gmul 0x53 0xCA = 0x01 ∧ gmul 0x09 0x0E = 0x7E := by decide
theorem test_hi_lo_words : hiWord 0x1B02EFFC7072#48 = 0x00001B02 ∧ loWord 0x1B02EFFC7072#48 = 0xEFFC7072 := by decide

/-! ### DES tables and stages (95_test_vectors.md 2.2, 2.3) -/

theorem test_ip_of_single_bits :
    perm 64 ipTable 0x8000000000000000#64 = 0x0000000001000000 ∧ perm 64 ipTable 0x0000000000000001#64 = 0x0000008000000000 := by
  decide +kernel
theorem test_fp : finalPerm 0x0A4CD995 0x43423234 = 0x85E813540F0AB405 := by decide +kernel
theorem test_e : expandR 0xF0AAF0AA = 0x7A15557A1555 ∧ expandR 0x00000001 = 0x800000000002 := by decide +kernel
theorem test_p : perm 32 pTable 0x5C82B597#32 = 0x234AA9BB ∧ perm 32 pTable 0x80000000#32 = 0x00800000 := by decide +kernel
theorem test_sboxes : sboxes 0x6117BA866527 = 0x5C82B597 ∧ sboxes 0 = 0xEFA72C4D ∧ sboxes 0xFFFFFFFFFFFF = 0xD9CE3DCB := by
  decide +kernel
theorem test_sbox_addressing :
    sboxOut sbox1 0b000001 = 0 ∧ sboxOut sbox1 0b100000 = 4 ∧ sboxOut sbox1 0b011110 = 7 ∧ sboxOut sbox5 0b101101 = 2 ∧
    sboxOut sbox8 0b111111 = 11 := by decide
theorem test_des_halves_of_the_key : desHalves 0x133457799BBCDFF1 0 = (0xF0CCAAF, 0x556678F) := by decide +kernel
theorem test_des_subkey_of_single_bit : desSubkey 0x8000000000000000 2 = 0x004000000000 := by decide +kernel

/-! ### AES tables and stages (95_test_vectors.md 2.5, 2.6) -/

theorem test_subBytes :
    subBytes (bytesOf 0x00102030405060708090A0B0C0D0E0F0) = bytesOf 0x63CAB7040953D051CD60E0E7BA70E18C := by decide +kernel
theorem test_shiftRows :
    shiftRows (bytesOf 0x000102030405060708090A0B0C0D0E0F) = bytesOf 0x00050A0F04090E03080D02070C01060B := by decide +kernel
theorem test_invShiftRows :
    invShiftRows (bytesOf 0x000102030405060708090A0B0C0D0E0F) = bytesOf 0x000D0A0704010E0B0805020F0C090603 := by
  decide +kernel
theorem test_mixColumns :
    mixColumns (bytesOf 0x6353E08C0960E104CD70B751BACAD0E7) = bytesOf 0x5F72641557F5BC92F7BE3B291DB9F91A := by decide +kernel
theorem test_invMixColumns :
    invMixColumns (bytesOf 0x8E4DA1BC010101010000000000000000) = bytesOf 0xDB135345010101010000000000000000 := by
  decide +kernel
theorem test_invSubBytes : invSubBytes (bytesOf 0x63637C7CD7AB76FE0000000000000000)
    = bytesOf 0x000001010D0E0F0C5252525252525252 := by decide +kernel
theorem test_key_word_5 :
    xorWord #v[0xD6, 0xAA, 0x74, 0xFD] #v[0x04, 0x05, 0x06, 0x07] = #v[0xD2, 0xAF, 0x72, 0xFA] := by decide
theorem test_special_term_of_word_4 : specialTerm 4 #v[0x0C, 0x0D, 0x0E, 0x0F] = #v[0xD6, 0xAB, 0x76, 0xFE] := by decide +kernel

/-! ### The commands: START on the operands of V1 and V2, and FormatErrors (E1 to E27) -/

theorem test_desEnc_starts :
    (after (exec .desEnc desReady)).dtext = 0x0123456789ABCDEF ∧ (after (exec .desEnc desReady)).dkey = 0x133457799BBCDFF1 ∧
    (after (exec .desEnc desReady)).seq = .desPc1 ∧ statusWord (after (exec .desEnc desReady)) = 1 := by decide +kernel
theorem test_desEnc_names_the_bad_key_character :
    errWord (after (exec .desEnc (loaded (hexChars 16 0x0123456789ABCDEF)
      [0x31, 0x33, 0x33, 0x34, 0x35, 0x47, 0x37, 0x39, 0x39, 0x42, 0x42, 0x43, 0x44, 0x46, 0x46, 0x31]))).errinfo
      = 0x541 := by decide +kernel
theorem test_desDec_starts :
    (after (exec .desDec desReady)).cmd = 0x11 ∧ (after (exec .desDec desReady)).cmdr = ⟨1, true, false⟩ := by
  decide +kernel
theorem test_desDec_rejects_32_characters : errWord (after (exec .desDec aesReady)).errinfo = 0x11 := by decide +kernel
theorem test_desEncT_starts :
    (after (exec .desEncT desReady)).cmd = 0x21 ∧ (after (exec .desEncT desReady)).cmdr = ⟨1, false, true⟩ := by
  decide +kernel
theorem test_desEncT_rejects_unwritten_text :
    errWord (after (exec .desEncT { State.reset with avce := { Avce.reset with textLen := 16 } })).errinfo = 0x21 := by
  decide +kernel
theorem test_desDecT_starts :
    (after (exec .desDecT desReady)).cmd = 0x31 ∧ (after (exec .desDecT desReady)).cmdr = ⟨1, true, true⟩ := by
  decide +kernel
theorem test_desDecT_compares_the_whole_length :
    errWord (after (exec .desDecT { desReady with avce := { desReady.avce with textLen := 0x80000010 } })).errinfo = 0x11 := by
  decide +kernel
theorem test_aesEnc_starts :
    (after (exec .aesEnc aesReady)).atext = bytesOf 0x00112233445566778899AABBCCDDEEFF ∧
    (after (exec .aesEnc aesReady)).akey = bytesOf 0x000102030405060708090A0B0C0D0E0F ∧
    (after (exec .aesEnc aesReady)).seq = .aesKx 0 := by decide +kernel
theorem test_aesEnc_rejects_16_characters : errWord (after (exec .aesEnc desReady)).errinfo = 0x11 := by decide +kernel
theorem test_aesDec_starts :
    (after (exec .aesDec aesReady)).cmd = 0x12 ∧ (after (exec .aesDec aesReady)).cmdr = ⟨2, true, false⟩ := by
  decide +kernel
theorem test_aesDec_names_the_last_key_character :
    errWord (after (exec .aesDec { aesReady with avce := { aesReady.avce with
      keyBuf := aesReady.avce.keyBuf.set 31 0x78 } })).errinfo = 0x1F41 := by decide +kernel
theorem test_aesEncT_starts :
    (after (exec .aesEncT aesReady)).cmd = 0x22 ∧ (after (exec .aesEncT aesReady)).cmdr = ⟨2, false, true⟩ := by
  decide +kernel
theorem test_aesEncT_accepts_lower_case :
    (after (exec .aesEncT { aesReady with avce := { aesReady.avce with
      textBuf := aesReady.avce.textBuf.set 31 0x66 } })).atext = bytesOf 0x00112233445566778899AABBCCDDEEFF := by
  decide +kernel
theorem test_aesDecT_starts :
    (after (exec .aesDecT aesReady)).cmd = 0x32 ∧ (after (exec .aesDecT aesReady)).cmdr = ⟨2, true, true⟩ := by
  decide +kernel
theorem test_aesDecT_rejects_a_key_of_31 :
    errWord (after (exec .aesDecT { aesReady with avce := { aesReady.avce with keyLen := 31 } })).errinfo = 0x31 := by
  decide +kernel

/-! ### Engine steps (V5 to V8) -/

theorem test_step_desPc1_header :
    (engineStep { busyAt 0x21 1 false true .desPc1 with
      dkey := 0x133457799BBCDFF1, dtext := 0x0123456789ABCDEF }).trace =
      [(0, 0x21), (1, 0x13345779), (2, 0x9BBCDFF1), (3, 0x01234567), (4, 0x89ABCDEF), (5, 0x0F0CCAAF),
        (6, 0x0556678F)] := by decide +kernel
theorem test_step_desKs_1_record :
    (engineStep { busyAt 0x21 1 false true (.desKs 0) with c := 0xF0CCAAF, d := 0x556678F }).trace =
      [(16, 0x0F0CCAAF), (17, 0x0556678F), (18, 0x0E19955F), (19, 0x0AACCF1E), (20, 0x00001B02), (21, 0xEFFC7072),
        (22, 1), (23, 1)] := by decide +kernel
theorem test_step_desIp :
    (engineStep { busyAt 0x01 1 false false .desIp with dtext := 0x0123456789ABCDEF }).l = 0xCC00CCFF ∧
    (engineStep { busyAt 0x01 1 false false .desIp with dtext := 0x0123456789ABCDEF }).r = 0xF0AAF0AA := by decide +kernel
theorem test_step_desRnd_1_of_decryption :
    (engineStep { busyAt 0x31 1 true true (.desRnd 0) with
      l := 0x0A4CD995, r := 0x43423234, k := Avce.reset.k.set 15 0xCB3D8B0E17F5 }).trace =
      [(144, 1), (145, 16), (146, 0x0A4CD995), (147, 0x43423234), (148, 0x0000CB3D), (149, 0x8B0E17F5),
        (150, 0x0000206A), (151, 0x041A41A8), (152, 0x0000EB57), (153, 0x8F14565D), (154, 0xA7832429), (155, 0xC8C04F98),
        (156, 0xC28C960D), (157, 0x43423234), (158, 0xC28C960D), (159, 1)] := by decide +kernel
theorem test_step_desRnd_16_does_not_swap :
    (engineStep { busyAt 0x01 1 false false (.desRnd 15) with
      l := 0xC28C960D, r := 0x43423234, k := Avce.reset.k.set 15 0xCB3D8B0E17F5 }).l = 0x0A4CD995 ∧
    (engineStep { busyAt 0x01 1 false false (.desRnd 15) with
      l := 0xC28C960D, r := 0x43423234, k := Avce.reset.k.set 15 0xCB3D8B0E17F5 }).r = 0x43423234 := by decide +kernel
theorem test_step_desFp_publishes :
    (engineStep { busyAt 0x01 1 false false .desFp with l := 0x0A4CD995, r := 0x43423234 }).outBuf.toList.take 17 =
      [0x38, 0x35, 0x45, 0x38, 0x31, 0x33, 0x35, 0x34, 0x30, 0x46, 0x30, 0x41, 0x42, 0x34, 0x30, 0x35, 0] := by
  decide +kernel
theorem test_step_aesKx_4_record :
    (engineStep { busyAt 0x22 2 false true (.aesKx 4) with
      w := (Avce.reset.w.set 0 #v[0x00, 0x01, 0x02, 0x03]).set 3 #v[0x0C, 0x0D, 0x0E, 0x0F] }).trace =
      [(48, 4), (49, 1), (50, 0x0D0E0F0C), (51, 0xD7AB76FE), (52, 0xD6AB76FE), (53, 0x01000000), (54, 0xD6AA74FD)] := by
  decide +kernel
theorem test_step_aesKx_5_word :
    (engineStep { busyAt 0x02 2 false false (.aesKx 5) with
      w := (Avce.reset.w.set 1 #v[0x04, 0x05, 0x06, 0x07]).set 4 #v[0xD6, 0xAA, 0x74, 0xFD] }).w[5] =
      #v[0xD2, 0xAF, 0x72, 0xFA] := by decide +kernel
theorem test_step_aesRnd_1 :
    (engineStep { busyAt 0x02 2 false false (.aesRnd 0) with
      st := bytesOf 0x00102030405060708090A0B0C0D0E0F0,
      w := (((Avce.reset.w.set 4 #v[0xD6, 0xAA, 0x74, 0xFD]).set 5 #v[0xD2, 0xAF, 0x72, 0xFA]).set 6
        #v[0xDA, 0xA6, 0x78, 0xF1]).set 7 #v[0xD6, 0xAB, 0x76, 0xFE] }).st
      = bytesOf 0x89D810E8855ACE682D1843D8CB128FE4 := by decide +kernel
theorem test_step_aesRnd_1_of_decryption :
    (engineStep { busyAt 0x12 2 true false (.aesRnd 0) with
      st := bytesOf 0x7AD5FDA789EF4E272BCA100B3D9FF59F,
      w := (((Avce.reset.w.set 36 #v[0x54, 0x99, 0x32, 0xD1]).set 37 #v[0xF0, 0x85, 0x57, 0x68]).set 38
        #v[0x10, 0x93, 0xED, 0x9C]).set 39 #v[0xBE, 0x2C, 0x97, 0x4E] }).st
      = bytesOf 0x54D990A16BA09AB596BBF40EA111702F := by decide +kernel
theorem test_step_aesOut_publishes :
    (engineStep { busyAt 0x02 2 false false .aesOut with
      st := bytesOf 0x69C4E0D86A7B0430D8CDB78070B4C55A }).dout = #v[0x69C4E0D8, 0x6A7B0430, 0xD8CDB780, 0x70B4C55A] := by
  decide +kernel

/-! ### The host's accesses (A1 to A6; E13, E18; R330) -/

theorem test_read_id : readBack (step { State.reset with schedule := [.rd 0x000] }) = 0x41560007 := by decide
theorem test_write_of_id_is_ignored : hostRead (after (hostWrite 0x000 0 State.reset)) 0x000 = 0x41560007 := by decide
theorem test_unmapped_numbers :
    hostRead (after (hostWrite 0x00C 0x1234 State.reset)) 0x00C = 0 ∧ hostRead (after (hostWrite 0x100 5 State.reset)) 0x100 = 0 ∧
    hostRead Avce.reset 0x01F = 0 ∧ hostRead Avce.reset 0x080 = 0 ∧ hostRead Avce.reset 0x3FF = 0 := by decide +kernel
theorem test_read_only_numbers :
    hostWrite 0x002 7 State.reset = .next State.reset ∧ hostWrite 0x060 0x41 State.reset = .next State.reset ∧
    hostWrite 0x400 1 State.reset = .next State.reset := ⟨rfl, rfl, rfl⟩
theorem test_input_registers_hold_32_bits :
    hostRead (after (hostWrite 0x03F 0xFFFFFFFF State.reset)) 0x03F = 0xFFFFFFFF ∧
    hostRead (after (hostWrite 0x005 0xDEADBEEF State.reset)) 0x005 = 0xDEADBEEF := by decide +kernel
theorem test_unknown_algorithm :
    errWord (after (hostWrite 0x001 0x43 desReady)).errinfo = 0x15 ∧ statusWord (after (hostWrite 0x001 0x43 desReady)) = 2 := by
  decide +kernel
theorem test_reserved_bits_precede_the_operands :
    errWord (after (hostWrite 0x001 0x41 State.reset)).errinfo = 0x25 := by decide +kernel
theorem test_trace_read_gate :
    hostRead { Avce.reset with trace := [(3, 7), (4, 8)], traceLen := 4 } 0x403 = 7 ∧
    hostRead { Avce.reset with trace := [(3, 7), (4, 8)], traceLen := 4 } 0x404 = 0 := by decide
theorem test_memory_forms :
    Memory.writeWord [(2, 5), (9, 1)] 4 7 = [(2, 5), (4, 7), (9, 1)] ∧ Memory.writeWord [(2, 5), (9, 1)] 2 0 = [(9, 1)] ∧
    Memory.writeWord [(2, 5)] 1024 1 = [(2, 5)] := by decide

/-! ### Witnesses for the hypotheses of the statements

`busyAt` gives one BUSY state for every step; `desReady` and `aesReady` are the valid operands. -/

theorem desReady_valid : desReady.avce.busy = false ∧ OperandsValid 16 desReady.avce := by
  refine ⟨by decide, by decide +kernel, by decide +kernel, by decide +kernel⟩

theorem aesReady_valid : aesReady.avce.busy = false ∧ OperandsValid 32 aesReady.avce := by
  refine ⟨by decide, by decide +kernel, by decide +kernel, by decide +kernel⟩

/-- DesStartLatchesAndGoesBusy, for each of its four commands. -/
theorem witness_DesStartLatchesAndGoesBusy :
    ∀ i ∈ [Instr.desEnc, .desDec, .desEncT, .desDecT],
      (i = .desEnc ∨ i = .desDec ∨ i = .desEncT ∨ i = .desDecT) ∧
        desReady.avce.busy = false ∧ OperandsValid 16 desReady.avce :=
  fun i hi => ⟨by simpa using hi, desReady_valid⟩

/-- AesStartLatchesAndGoesBusy, for each of its four commands. -/
theorem witness_AesStartLatchesAndGoesBusy :
    ∀ i ∈ [Instr.aesEnc, .aesDec, .aesEncT, .aesDecT],
      (i = .aesEnc ∨ i = .aesDec ∨ i = .aesEncT ∨ i = .aesDecT) ∧
        aesReady.avce.busy = false ∧ OperandsValid 32 aesReady.avce :=
  fun i hi => ⟨by simpa using hi, aesReady_valid⟩

theorem witness_DesEncEncrypts : desReady.avce.busy = false ∧ OperandsValid 16 desReady.avce := desReady_valid
theorem witness_DesDecDecrypts : desReady.avce.busy = false ∧ OperandsValid 16 desReady.avce := desReady_valid
theorem witness_DesEncTracedEncrypts : desReady.avce.busy = false ∧ OperandsValid 16 desReady.avce := desReady_valid
theorem witness_DesDecTracedDecrypts : desReady.avce.busy = false ∧ OperandsValid 16 desReady.avce := desReady_valid
theorem witness_AesEncEncrypts : aesReady.avce.busy = false ∧ OperandsValid 32 aesReady.avce := aesReady_valid
theorem witness_AesDecDecrypts : aesReady.avce.busy = false ∧ OperandsValid 32 aesReady.avce := aesReady_valid
theorem witness_AesEncTracedEncrypts : aesReady.avce.busy = false ∧ OperandsValid 32 aesReady.avce := aesReady_valid
theorem witness_AesDecTracedDecrypts : aesReady.avce.busy = false ∧ OperandsValid 32 aesReady.avce := aesReady_valid
/-- The trace statements, for each of the two commands they name. -/
theorem witness_DesTraceHoldsEveryRecord :
    ∀ i ∈ [Instr.desEncT, .desDecT],
      (i = .desEncT ∨ i = .desDecT) ∧ desReady.avce.busy = false ∧ OperandsValid 16 desReady.avce :=
  fun _ hi => ⟨by simpa using hi, desReady_valid⟩
theorem witness_AesTraceHoldsEveryRecord :
    ∀ i ∈ [Instr.aesEncT, .aesDecT],
      (i = .aesEncT ∨ i = .aesDecT) ∧ aesReady.avce.busy = false ∧ OperandsValid 32 aesReady.avce :=
  fun _ hi => ⟨by simpa using hi, aesReady_valid⟩
/-- Both clauses of TracedAndDirectAgree. -/
theorem witness_TracedAndDirectAgree :
    (desReady.avce.busy = false ∧ OperandsValid 16 desReady.avce) ∧
      (aesReady.avce.busy = false ∧ OperandsValid 32 aesReady.avce) := ⟨desReady_valid, aesReady_valid⟩

/-- OpcodeTableWordsDecode and its like have no hypothesis; HexDecPlacesEveryDigit at its first and last digit. -/
theorem witness_HexDecPlacesEveryDigit : 0 < (hexChars 32 0x0F).length ∧ 31 < (hexChars 32 0x0F).length := by decide

theorem witness_HexDigitCodesAndValues :
    (0x30 ≤ (0x30 : Word).toNat ∧ (0x30 : Word).toNat ≤ 0x39) ∧ (0x30 ≤ (0x39 : Word).toNat ∧ (0x39 : Word).toNat ≤ 0x39) ∧
    (0x41 ≤ (0x41 : Word).toNat ∧ (0x41 : Word).toNat ≤ 0x46) ∧ (0x41 ≤ (0x46 : Word).toNat ∧ (0x46 : Word).toNat ≤ 0x46) ∧
    (0x61 ≤ (0x61 : Word).toNat ∧ (0x61 : Word).toNat ≤ 0x66) ∧ (0x61 ≤ (0x66 : Word).toNat ∧ (0x66 : Word).toNat ≤ 0x66) := by
  decide

theorem witness_HexEncInvertsHexDec :
    ((hexChars 16 0x0123456789ABCDEF).length = 16 ∧ ∀ c ∈ hexChars 16 0x0123456789ABCDEF, isHex c = true) ∧
    ((hexChars 32 0x0123456789ABCDEF).length = 32 ∧ ∀ c ∈ hexChars 32 0x0123456789ABCDEF, isHex c = true) :=
  ⟨⟨rfl, List.all_eq_true.mp (by decide +kernel)⟩, rfl, List.all_eq_true.mp (by decide +kernel)⟩

/-- A DES text of the right length whose character `i` is `G`. -/
def badTextAt (i : Fin 32) : Avce := { desReady.avce with textBuf := desReady.avce.textBuf.set i 0x47 }

/-- A DES key of the right length whose character `i` is `G`. -/
def badKeyAt (i : Fin 32) : Avce := { desReady.avce with keyBuf := desReady.avce.keyBuf.set i 0x47 }

/-- FormatErrorNamesTheFailedCheck: each of its four clauses, the indices at both ends. -/
theorem witness_FormatError_text_length :
    State.reset.avce.busy = false ∧ State.reset.avce.textLen ≠ BitVec.ofNat 32 (needOf .desEnc) ∧
      State.reset.avce.textLen ≠ BitVec.ofNat 32 (needOf .aesDecT) := by decide
theorem witness_FormatError_text_first :
    (badTextAt 0).busy = false ∧ (badTextAt 0).textLen = BitVec.ofNat 32 (needOf .desEnc) ∧
      FirstBadChar (badTextAt 0).textBuf (needOf .desEnc) 0 := by
  refine ⟨by decide, by decide +kernel, by decide, by decide +kernel, by decide +kernel⟩
theorem witness_FormatError_text_last :
    (badTextAt 15).busy = false ∧ (badTextAt 15).textLen = BitVec.ofNat 32 (needOf .desEnc) ∧
      FirstBadChar (badTextAt 15).textBuf (needOf .desEnc) 15 := by
  refine ⟨by decide, by decide +kernel, by decide, by decide +kernel, by decide +kernel⟩
theorem witness_FormatError_key_length :
    State.reset.avce.busy = false ∧
    ({ desReady.avce with keyLen := 0 } : Avce).textLen = BitVec.ofNat 32 (needOf .desDec) ∧
    (∀ j : Fin 32, j.val < needOf .desDec → isHex ({ desReady.avce with keyLen := 0 } : Avce).textBuf[j] = true) ∧
    ({ desReady.avce with keyLen := 0 } : Avce).keyLen ≠ BitVec.ofNat 32 (needOf .desDec) := by decide +kernel
theorem witness_FormatError_key_first :
    (badKeyAt 0).busy = false ∧ (badKeyAt 0).textLen = BitVec.ofNat 32 (needOf .desEncT) ∧
    (∀ k : Fin 32, k.val < needOf .desEncT → isHex (badKeyAt 0).textBuf[k] = true) ∧
    (badKeyAt 0).keyLen = BitVec.ofNat 32 (needOf .desEncT) ∧ FirstBadChar (badKeyAt 0).keyBuf (needOf .desEncT) 0 := by
  refine ⟨by decide, by decide +kernel, by decide +kernel, by decide +kernel, by decide, by decide +kernel,
    by decide +kernel⟩
theorem witness_FormatError_key_last_of_aes :
    FirstBadChar (aesReady.avce.keyBuf.set 31 0x78) (needOf .aesDec) 31 := by
  refine ⟨by decide, by decide +kernel, by decide +kernel⟩

/-- StartReportsTheFirstCause: not BUSY, with a word for each branch of the first two causes and for a command. -/
theorem witness_StartReportsTheFirstCause :
    State.reset.avce.busy = false ∧ ((0x43 : Word).toNat % 16 ≠ 1 ∧ (0x43 : Word).toNat % 16 ≠ 2) ∧
    ((0x41 : Word).toNat % 16 = 1 ∧ (0x41 : Word).toNat / 64 ≠ 0) ∧
    ((0x3F - 0x0D : Word).toNat % 16 = 2 ∧ (0x3F - 0x0D : Word).toNat / 64 = 0) := by decide

theorem witness_ErrorEntryLeavesExactlyThis :
    State.reset.avce.busy = false ∧
      ∃ t, hostWrite cmdRegNo 0 State.reset = .next t ∧ t.avce.errinfo.code ≠ 0 :=
  ⟨rfl, _, rfl, by decide⟩

theorem witness_WritesWhileBusyAreIgnored :
    ({ State.reset with avce := busyAt 0x01 1 false false .desPc1 } : State).avce.busy = true := rfl

/-- The started commands of V1 and V2. -/
def desStarted : Avce := after (exec .desDecT desReady)
def aesStarted : Avce := after (exec .aesEncT aesReady)

theorem desStarted_flags : FlagsInv desStarted := by constructor <;> decide +kernel
theorem aesStarted_flags : FlagsInv aesStarted := by constructor <;> decide +kernel
theorem reset_flags : FlagsInv Avce.reset := by constructor <;> decide +kernel

theorem desStarted_engine : EngineInv desStarted :=
  ⟨(by decide +kernel : desStarted.cmdr.alg = 1), fun h => absurd h (by decide +kernel)⟩
theorem aesStarted_engine : EngineInv aesStarted :=
  ⟨⟨(by decide +kernel : aesStarted.cmdr.alg = 2), fun j h => absurd h (Nat.not_lt_zero _)⟩,
    fun h => absurd h (by decide +kernel)⟩

theorem desStarted_result : ResultInv desStarted :=
  ⟨fun _ => by decide +kernel, fun h => absurd h (by decide +kernel), fun h => absurd h (by decide +kernel),
    fun h => absurd h (by decide +kernel), fun h => absurd h (by decide +kernel)⟩

/-- OutcomeDependsOnOperandsOnly: two states that differ in a character behind the operand, in CMD and in the trace. -/
theorem witness_OutcomeDependsOnOperandsOnly :
    desReady.avce.busy = false ∧
      SameOperands (needOf .desEncT) desReady.avce
        { desReady.avce with textBuf := desReady.avce.textBuf.set 16 0x7A, cmd := 7, trace := [(0, 1)] } := by
  refine ⟨by decide, by decide +kernel, by decide +kernel, by decide +kernel⟩

/-- A BUSY state at the steps DES_PC1 and DES_IP, and at the first and the last step of each loop. -/
theorem witness_DesKeyAndTextPermutationSteps :
    ((busyAt 0x21 1 false true .desPc1).busy = true ∧ (busyAt 0x21 1 false true .desPc1).seq = .desPc1) ∧
    ((busyAt 0x21 1 false true .desIp).busy = true ∧ (busyAt 0x21 1 false true .desIp).seq = .desIp) :=
  ⟨⟨rfl, rfl⟩, rfl, rfl⟩
theorem witness_DesKeyScheduleStep :
    ∀ r ∈ [(0 : Fin 16), 15], (busyAt 0x21 1 false true (.desKs r)).busy = true ∧
      (busyAt 0x21 1 false true (.desKs r)).seq = .desKs r := fun _ _ => ⟨rfl, rfl⟩
theorem witness_DesRoundStep :
    ∀ r ∈ [(0 : Fin 16), 15], ∀ dec, ∃ k ER X SOUT POUT LXF, let a := busyAt 0x31 1 dec true (.desRnd r)
      a.busy = true ∧ a.seq = .desRnd r ∧ k = (if a.cmdr.dec = true then a.k[15 - r.val]'(by omega) else a.k[r.val]) ∧
      ER = perm 48 eTable a.r ∧ X = ER ^^^ k ∧ SOUT = sboxes X ∧ POUT = perm 32 pTable SOUT ∧ LXF = a.l ^^^ POUT :=
  fun _ _ _ => ⟨_, _, _, _, _, _, rfl, rfl, rfl, rfl, rfl, rfl, rfl, rfl⟩
theorem witness_DesFinalStepPublishes :
    ∃ OUT, (busyAt 0x21 1 false true .desFp).busy = true ∧ (busyAt 0x21 1 false true .desFp).seq = .desFp ∧
      OUT = perm 64 fpTable ((busyAt 0x21 1 false true .desFp).l ++ (busyAt 0x21 1 false true .desFp).r) :=
  ⟨_, rfl, rfl, rfl⟩
/-- One index for each clause of AesKeyExpansionStep, and the last word. -/
theorem witness_AesKeyExpansionStep :
    (∀ i ∈ [(0 : Fin 44), 3, 4, 5, 40, 43], (busyAt 0x22 2 false true (.aesKx i)).busy = true ∧
      (busyAt 0x22 2 false true (.aesKx i)).seq = .aesKx i) ∧
    (0 : Fin 44).val < 4 ∧ (3 : Fin 44).val % 4 ≠ 0 ∧ (4 ≤ (4 : Fin 44).val ∧ (4 : Fin 44).val % 4 = 0) ∧
    (4 ≤ (40 : Fin 44).val ∧ (40 : Fin 44).val % 4 = 0) ∧ ((43 : Fin 44).val % 4 ≠ 0 ∧ 4 ≤ (43 : Fin 44).val) :=
  ⟨fun _ _ => ⟨rfl, rfl⟩, by decide, by decide, by decide, by decide, by decide⟩
theorem witness_AesInitialKeyStep :
    ∀ dec, ∃ RK, let a := busyAt 0x22 2 dec true .aesArk0
      a.busy = true ∧ a.seq = .aesArk0 ∧
        RK = (if a.cmdr.dec = true then joinWords #v[a.w[40], a.w[41], a.w[42], a.w[43]]
          else joinWords #v[a.w[0], a.w[1], a.w[2], a.w[3]]) := fun _ => ⟨_, rfl, rfl, rfl⟩
theorem witness_AesEncryptionRoundStep :
    ∀ r ∈ [(0 : Fin 10), 9], ∃ A B RK, let a := busyAt 0x22 2 false true (.aesRnd r)
      a.busy = true ∧ a.seq = .aesRnd r ∧ a.cmdr.dec = false ∧ A = subBytes a.st ∧ B = shiftRows A ∧
        RK = joinWords #v[a.w[4 * (r.val + 1)]'(by omega), a.w[4 * (r.val + 1) + 1]'(by omega),
          a.w[4 * (r.val + 1) + 2]'(by omega), a.w[4 * (r.val + 1) + 3]'(by omega)] :=
  fun _ _ => ⟨_, _, _, rfl, rfl, rfl, rfl, rfl, rfl⟩
theorem witness_AesDecryptionRoundStep :
    ∀ r ∈ [(0 : Fin 10), 9], ∃ A B RK C, let a := busyAt 0x32 2 true true (.aesRnd r)
      a.busy = true ∧ a.seq = .aesRnd r ∧ a.cmdr.dec = true ∧ A = invShiftRows a.st ∧ B = invSubBytes A ∧
        RK = joinWords #v[a.w[4 * (9 - r.val)]'(by omega), a.w[4 * (9 - r.val) + 1]'(by omega),
          a.w[4 * (9 - r.val) + 2]'(by omega), a.w[4 * (9 - r.val) + 3]'(by omega)] ∧ C = xorBlock B RK :=
  fun _ _ => ⟨_, _, _, _, rfl, rfl, rfl, rfl, rfl, rfl, rfl⟩
theorem witness_AesFinalStepPublishes :
    (busyAt 0x22 2 false true .aesOut).busy = true ∧ (busyAt 0x22 2 false true .aesOut).seq = .aesOut := ⟨rfl, rfl⟩

/-- The invariants, at a BUSY state that takes an engine step, the only kind of step whose effect is not a host's. -/
theorem witness_EveryStepKeepsTheFlags :
    FlagsInv ({ State.reset with avce := desStarted } : State).avce ∧
      ∃ t, step { State.reset with avce := desStarted } = .next t := ⟨desStarted_flags, _, rfl⟩
theorem witness_EveryStepKeepsTheCipherState :
    EngineInv ({ State.reset with avce := aesStarted } : State).avce ∧
      ∃ t, step { State.reset with avce := aesStarted } = .next t := ⟨aesStarted_engine, _, rfl⟩
theorem witness_EveryStepKeepsTheResult :
    FlagsInv ({ State.reset with avce := desStarted } : State).avce ∧
      EngineInv ({ State.reset with avce := desStarted } : State).avce ∧
      ResultInv ({ State.reset with avce := desStarted } : State).avce ∧
      ∃ t, step { State.reset with avce := desStarted } = .next t :=
  ⟨desStarted_flags, desStarted_engine, desStarted_result, _, rfl⟩
theorem witness_EveryStepKeepsTheTraceMemoryCanonical :
    Memory.wf [(0, 1), (1023, 2)] ∧
      ∃ t, step { State.reset with avce := { desStarted with trace := [(0, 1), (1023, 2)] } } = .next t :=
  ⟨by decide, _, rfl⟩
theorem witness_EveryStepKeepsErrinfoLegal :
    ErrinfoLegal ⟨1, 4, 31⟩ ∧ ErrinfoLegal ⟨1, 2, 0⟩ ∧ ErrinfoLegal ⟨5, 2, 0⟩ ∧ ∃ t, step State.reset = .next t :=
  ⟨.inr (.inr (.inr (.inr (.inr ⟨31, by decide, by decide⟩)))),
    .inr (.inr (.inr (.inr (.inr ⟨0, by decide, by decide⟩)))), .inr (.inr (.inr (.inr (.inl (by decide))))), _, rfl⟩

/-- STATUS takes each of its four values in a state that has the flags' invariant. -/
theorem witness_StatusTakesFourValues :
    (FlagsInv Avce.reset ∧ statusWord Avce.reset = 0) ∧ (FlagsInv desStarted ∧ statusWord desStarted = 1) ∧
    (FlagsInv (after (exec .aesDec desReady)) ∧ statusWord (after (exec .aesDec desReady)) = 2) ∧
    (FlagsInv (engineStep { desStarted with seq := .desFp }) ∧ statusWord (engineStep { desStarted with seq := .desFp }) = 6) := by
  refine ⟨⟨reset_flags, by decide⟩, ⟨desStarted_flags, by decide +kernel⟩, ⟨?_, by decide +kernel⟩, ?_, by decide +kernel⟩
  · constructor <;> decide +kernel
  · constructor <;> decide +kernel

theorem witness_ReadsWhileBusyShowNoResult :
    FlagsInv desStarted ∧ ResultInv desStarted ∧ desStarted.busy = true :=
  ⟨desStarted_flags, desStarted_result, by decide +kernel⟩

theorem witness_StepRunsTheDecodedCommand :
    ({ desReady with schedule := [.wr 0x001 0x21, .poll] } : State).schedule = .wr 0x001 0x21 :: [.poll] ∧
      decode 0x21 = .command .desEncT ∧ desReady.avce.busy = false := ⟨rfl, by decide, rfl⟩

/-- One schedule for each clause. -/
theorem witness_StepTakesOneEvent :
    ({ State.reset with schedule := [.rd 0x002, .rd 0x002] } : State).schedule = .rd 0x002 :: .rd 0x002 :: [] ∧
    ({ State.reset with schedule := [.wr 0x020 0x30] } : State).schedule = .wr 0x020 0x30 :: [] ∧
    ({ State.reset with schedule := [.reset] } : State).schedule = .reset :: [] ∧
    ({ State.reset with schedule := [.engine] } : State).schedule = .engine :: [] ∧
    (({ State.reset with schedule := [.poll, .reset] } : State).schedule = .poll :: [.reset] ∧
      State.reset.avce.busy = false) ∧
    (({ State.reset with avce := desStarted, schedule := [.poll, .reset] } : State).schedule = .poll :: [.reset] ∧
      desStarted.busy = true) ∧ State.reset.schedule = [] ∧ Avce.reset.busy = false :=
  ⟨rfl, rfl, rfl, rfl, ⟨rfl, rfl⟩, ⟨rfl, by decide +kernel⟩, rfl, rfl⟩

/-- HostAccessesCannotDisturbACommand: a read, a dropped write and two engine steps, after which it is still BUSY; and
the engine step that finishes a command. -/
theorem witness_HostAccessesCannotDisturbACommand :
    ({ State.reset with avce := desStarted, schedule := [.rd 0x002, .engine, .wr 0x001 0, .engine, .poll] } : State).schedule
      = [.rd 0x002, .engine, .wr 0x001 0] ++ .engine :: [.poll] ∧
    (∀ e ∈ [Event.rd 0x002, .engine, .wr 0x001 0], e.isPlain = true) ∧ Event.engine.isPlain = true ∧
    (engineSteps (countEngine [.rd 0x002, .engine, .wr 0x001 0]) desStarted).busy = true ∧
    (engineSteps (countEngine [.wr 0x001 0]) (busyAt 0x21 1 false true .desFp)).busy = true ∧
    (engineSteps (countEngine [.wr 0x001 0, .engine]) (busyAt 0x21 1 false true .desFp)).busy = false := by
  refine ⟨rfl, by decide, rfl, by decide +kernel, by decide +kernel, by decide +kernel⟩

theorem witness_EveryStartedCommandCompletes :
    FlagsInv ({ State.reset with avce := aesStarted } : State).avce ∧ aesStarted.busy = true ∧
      ({ State.reset with avce := aesStarted } : State).schedule = [] := ⟨aesStarted_flags, by decide +kernel, rfl⟩

/-- POLL from a BUSY and from an idle state. -/
theorem witness_PollEndsWithBusyClear :
    (FlagsInv ({ State.reset with avce := aesStarted, schedule := [.poll] } : State).avce ∧ aesStarted.busy = true) ∧
      FlagsInv ({ State.reset with schedule := [.poll] } : State).avce :=
  ⟨⟨aesStarted_flags, by decide +kernel⟩, reset_flags⟩

/-- Both ends of every TRACE clause of RegisterMapReads. -/
theorem witness_RegisterMapReads :
    ((0 : Fin 1024).val < ({ Avce.reset with traceLen := 400 } : Avce).traceLen.toNat) ∧
    ((399 : Fin 1024).val < ({ Avce.reset with traceLen := 400 } : Avce).traceLen.toNat) ∧
    (({ Avce.reset with traceLen := 400 } : Avce).traceLen.toNat ≤ (400 : Fin 1024).val) ∧
    (({ Avce.reset with traceLen := 400 } : Avce).traceLen.toNat ≤ (1023 : Fin 1024).val) := by decide

/-- The ends of every range of unmapped and of read-only numbers. -/
theorem witness_UnmappedAndReadOnlyAccessesAreInert :
    (∀ n ∈ [(0x00C : RegNo), 0x01F, 0x080, 0x3FF], UnmappedNo n) ∧
    ∀ n ∈ [(0x000 : RegNo), 0x002, 0x003, 0x006, 0x007, 0x008, 0x00B, 0x060, 0x07F, 0x400, 0x7FF], ReadOnlyNo n := by
  simp [UnmappedNo, ReadOnlyNo]

theorem witness_InputWritesStoreTheWholeWord :
    desReady.avce.busy = false ∧ ((0x000 : RegNo).toNat ≠ 0x001 ∧ (0x000 : RegNo).toNat ≠ 0x004 ∧
      (0x000 : RegNo).toNat ≠ 0x005 ∧ ¬(0x020 ≤ (0x000 : RegNo).toNat ∧ (0x000 : RegNo).toNat ≤ 0x05F)) := by decide

/-- RESET while BUSY and while idle. -/
theorem witness_ResetClearsEverything :
    ({ State.reset with avce := desStarted, schedule := [.reset, .poll] } : State).schedule = .reset :: [.poll] := rfl

/-- The V1 key and the same key with every parity bit flipped (95_test_vectors.md 2.2). -/
theorem witness_KeyParityIsIgnored : SameButParity 0x133457799BBCDFF1 0x123556789ABDDEF0 := by
  unfold SameButParity
  decide +kernel

theorem witness_KeyRotationsCloseUp : (1 ≤ 1 ∧ 1 ≤ 16) ∧ (1 ≤ 9 ∧ 9 ≤ 16) ∧ (1 ≤ 16 ∧ 16 ≤ 16) := by decide

/-- The first and last special and ordinary words. -/
theorem witness_KeyWordsFollowTheRecurrence :
    (4 ≤ 4 ∧ 4 < 44 ∧ 4 % 4 = 0) ∧ (4 ≤ 40 ∧ 40 < 44 ∧ 40 % 4 = 0) ∧ (4 ≤ 5 ∧ 5 < 44 ∧ 5 % 4 ≠ 0) ∧
    (4 ≤ 43 ∧ 43 < 44 ∧ 43 % 4 ≠ 0) := by decide

end Sys2Proof.Tests
end

-- The proofs of the family 00_scope.md
section
/-! What one step of the machine does with each kind of event (00_scope.md R14; 30_encoding.md R96; 70_reset_and_hazards.md
R320, R330). -/

namespace Sys2Proof.Machine

/-! ### A step takes the next event -/

theorem step_of_nil {s : State} (h : s.schedule = []) : step s = .next { s with avce := engineStep s.avce } := by
  simp only [step, takeStep, h]

theorem step_of_cons {s : State} {e : Event} {rest : List Event} (h : s.schedule = e :: rest) :
    step s = runEvent e { s with schedule := rest } := by
  simp only [step, takeStep, h]

theorem step_of_rd {s : State} {n : RegNo} {rest : List Event} (h : s.schedule = .rd n :: rest) :
    step s = .next { avce := s.avce, schedule := rest, rdata := hostRead s.avce n } :=
  step_of_cons h

theorem step_of_wr {s : State} {n : RegNo} {v : Word} {rest : List Event} (h : s.schedule = .wr n v :: rest) :
    step s = hostWrite n v { s with schedule := rest } :=
  step_of_cons h

theorem step_of_reset {s : State} {rest : List Event} (h : s.schedule = .reset :: rest) :
    step s = .next { avce := Avce.reset, schedule := rest, rdata := s.rdata } :=
  step_of_cons h

theorem step_of_engine {s : State} {rest : List Event} (h : s.schedule = .engine :: rest) :
    step s = .next { avce := engineStep s.avce, schedule := rest, rdata := s.rdata } :=
  step_of_cons h

/-! ### Reads -/

/-- A read leaves nothing behind that a second read of the same number could see (R52, R55). -/
theorem two_reads_agree {s : State} {n : RegNo} {rest : List Event} (h : s.schedule = .rd n :: .rd n :: rest) :
    ∃ t u, step s = .next t ∧ step t = .next u ∧ u.rdata = t.rdata ∧ u.avce = s.avce :=
  ⟨_, _, step_of_rd h, step_of_rd rfl, rfl, rfl⟩

/-! ### POLL -/

/-- The number that POLL reads is that of STATUS (R51). -/
theorem hostRead_statusRegNo (a : Avce) : hostRead a statusRegNo = statusWord a := by
  have hname : regName statusRegNo = .status := (regName_eq_iff _ _).mpr rfl
  rw [hostRead, hname, readReg]

/-- BUSY is bit 0 of STATUS (R23). -/
theorem getLsbD_statusWord_zero (a : Avce) : (statusWord a).getLsbD 0 = a.busy := by
  rw [statusWord, BitVec.getLsbD_append]
  cases a.busy <;> rfl

theorem getLsbD_hostRead_statusRegNo (a : Avce) : (hostRead a statusRegNo).getLsbD 0 = a.busy := by
  rw [hostRead_statusRegNo, getLsbD_statusWord_zero]

/-- A POLL stays in the schedule, behind one engine step, exactly when its read shows BUSY (R96; assumption log 1). -/
theorem pollOnce_eq (s : State) :
    pollOnce s =
      { avce := s.avce
        schedule := if s.avce.busy = true then .engine :: .poll :: s.schedule else s.schedule
        rdata := hostRead s.avce statusRegNo } := by
  simp only [pollOnce, getLsbD_hostRead_statusRegNo]
  cases s.avce.busy <;> rfl

theorem step_of_poll {s : State} {rest : List Event} (h : s.schedule = .poll :: rest) :
    step s = .next { avce := s.avce
                     schedule := if s.avce.busy = true then .engine :: .poll :: rest else rest
                     rdata := hostRead s.avce statusRegNo } := by
  have hevent : step s = .next (pollOnce { s with schedule := rest }) := step_of_cons h
  rw [hevent, pollOnce_eq]

/-! ### Every step answers a next state -/

theorem hostWrite_total (n : RegNo) (v : Word) (s : State) : ∃ t, hostWrite n v s = .next t := by
  rcases hostWrite_cases n v s with ⟨-, h⟩ | ⟨_, -, -, -, h⟩ | ⟨_, -, -, -, h⟩ | ⟨-, -, h⟩ <;> exact ⟨_, h⟩

theorem runEvent_total (e : Event) (s : State) : ∃ t, runEvent e s = .next t := by
  cases e with
  | wr n v => exact hostWrite_total n v s
  | rd | poll | reset | engine => exact ⟨_, rfl⟩

theorem step_total (s : State) : ∃ t, step s = .next t := by
  cases hs : s.schedule with
  | nil => exact ⟨_, step_of_nil hs⟩
  | cons e rest =>
    rw [step_of_cons hs]
    exact runEvent_total e _

/-- Settles O43: one equation for `step` per kind of event, the POLL's one through bit 0 of STATUS, and totality from
the cases of a host write. -/
theorem stepTakesOneEvent : Obligations.StepTakesOneEvent := by
  unfold Obligations.StepTakesOneEvent
  refine ⟨fun _ _ _ => step_of_rd, fun _ _ _ => two_reads_agree, fun _ _ _ _ => step_of_wr, fun _ _ => step_of_reset,
    fun _ _ => step_of_engine, fun s _ h => ⟨step_of_poll h, ?busyBit⟩, fun _ => step_of_nil, fun _ => engineStep_idle,
    step_total⟩
  case busyBit => exact Bool.eq_iff_iff.mp (getLsbD_hostRead_statusRegNo s.avce)

end Sys2Proof.Machine
end

-- The proofs of the family 10_state.md: what the steps do to the registers the invariants speak of
section
/-! Facts about STARTs, host writes and engine steps that the invariants rest on: which registers a START clears, which
registers no step but the last of a command touches, and what each step adds to the trace memory (30_encoding.md R93,
R94; 43_des_commands.md R176; 47_aes_commands.md R266). -/

namespace Sys2Proof.Machine

/-! ### A START, by its outcome -/

/-- A command's START is that of its algorithm, with the command's own word and its DEC and TRC fields (R85, R93). -/
theorem startOf_eq (i : Instr) (a : Avce) :
    startOf i a =
      if i.fields.alg = 1 then startDes (encode i) i.fields.dec i.fields.trc a
      else startAes (encode i) i.fields.dec i.fields.trc a := by
  cases i <;> rfl

/-- While idle the START of a command ends in a FormatError or latches the operands of its algorithm (R93). -/
theorem startOf_cases {a : Avce} (hb : a.busy = false) (i : Instr) :
    (∃ sub index, startOf i a = raiseError .formatError sub index (clearForStart (encode i) a)) ∨
    (i.fields.alg = 1 ∧ startOf i a = latchDes i.fields.dec i.fields.trc (clearForStart (encode i) a)) ∨
    (i.fields.alg ≠ 1 ∧ startOf i a = latchAes i.fields.dec i.fields.trc (clearForStart (encode i) a)) := by
  rw [startOf_eq]
  by_cases halg : i.fields.alg = 1
  · rw [if_pos halg]
    rcases startDes_cases (encode i) i.fields.dec i.fields.trc a with ⟨h, -⟩ | ⟨sub, index, -, -, h⟩ | ⟨-, -, h⟩
    · simp [hb] at h
    · exact .inl ⟨sub, index, h⟩
    · exact .inr (.inl ⟨halg, h⟩)
  · rw [if_neg halg]
    rcases startAes_cases (encode i) i.fields.dec i.fields.trc a with ⟨h, -⟩ | ⟨sub, index, -, -, h⟩ | ⟨-, -, h⟩
    · simp [hb] at h
    · exact .inl ⟨sub, index, h⟩
    · exact .inr (.inr ⟨halg, h⟩)

/-- A rejected word raises UnsupportedOperation on the cleared registers (R87, R93). -/
theorem startRejected_eq (v : Word) (e : DecodeError) (a : Avce) :
    ∃ sub, startRejected v e a = raiseError .unsupportedOperation sub 0 (clearForStart v a) := by
  cases e <;> exact ⟨_, rfl⟩

/-! ### The result registers -/

/-- No result is published, and every result register holds 0 (R27 to R29). -/
structure NoResult (a : Avce) : Prop where
  ok : a.ok = false
  outLen : a.outLen = 0
  traceLen : a.traceLen = 0
  outBuf : a.outBuf = Vector.replicate 32 0
  dout : a.dout = Vector.replicate 4 0

/-- `u` publishes what `a` publishes, and holds the same command and latched operands (R27 to R29, R31). -/
structure SameResult (a u : Avce) : Prop where
  ok : u.ok = a.ok
  outLen : u.outLen = a.outLen
  outBuf : u.outBuf = a.outBuf
  dout : u.dout = a.dout
  traceLen : u.traceLen = a.traceLen
  cmdr : u.cmdr = a.cmdr
  dkey : u.dkey = a.dkey
  dtext : u.dtext = a.dtext
  akey : u.akey = a.akey
  atext : u.atext = a.atext

theorem SameResult.refl (a : Avce) : SameResult a a := ⟨rfl, rfl, rfl, rfl, rfl, rfl, rfl, rfl, rfl, rfl⟩

theorem noResult_reset : NoResult Avce.reset := ⟨rfl, rfl, rfl, rfl, rfl⟩

/-- A START clears every result register, however it ends (R93). -/
theorem startOf_noResult {a : Avce} (hb : a.busy = false) (i : Instr) : NoResult (startOf i a) := by
  rcases startOf_cases hb i with ⟨_, _, h⟩ | ⟨-, h⟩ | ⟨-, h⟩ <;> rw [h] <;> exact ⟨rfl, rfl, rfl, rfl, rfl⟩

theorem startRejected_noResult (v : Word) (e : DecodeError) (a : Avce) : NoResult (startRejected v e a) := by
  obtain ⟨_, h⟩ := startRejected_eq v e a
  rw [h]
  exact ⟨rfl, rfl, rfl, rfl, rfl⟩

/-- The result registers are read-only and the latched operands no registers of the host (R31, R54). -/
theorem writeReg_sameResult (v : Word) (n : RegName) (a : Avce) : SameResult a (writeReg a v n) := by
  cases n <;> exact ⟨rfl, rfl, rfl, rfl, rfl, rfl, rfl, rfl, rfl, rfl⟩

/-- Nothing is published before the last step of a command, DES_FP or AES_OUT (R176, R266). -/
theorem engineStep_result_cases (a : Avce) :
    SameResult a (engineStep a) ∨ (a.busy = true ∧ a.seq = .desFp ∧ engineStep a = stepDesFp a) ∨
      (a.busy = true ∧ a.seq = .aesOut ∧ engineStep a = stepAesOut a) := by
  cases hb : a.busy with
  | false =>
    rw [engineStep_idle hb]
    exact .inl (.refl a)
  | true =>
    rw [engineStep_busy hb]
    cases hs : a.seq with
    | desFp => exact .inr (.inl ⟨rfl, rfl, by simp only [sequencedStep, hs]⟩)
    | aesOut => exact .inr (.inr ⟨rfl, rfl, by simp only [sequencedStep, hs]⟩)
    | idle | desPc1 | desKs | desIp | desRnd | aesKx | aesArk0 | aesRnd =>
      simp only [sequencedStep, hs]
      exact .inl ⟨rfl, rfl, rfl, rfl, rfl, rfl, rfl, rfl, rfl, rfl⟩

/-! ### The trace memory -/

theorem Memory.wf_nil : Memory.wf [] := ⟨.nil, fun _ h => absurd h List.not_mem_nil⟩

theorem traceIf_wf {a : Avce} (h : a.trace.wf) (off : Nat) (ws : List Word) : Memory.wf (traceIf a off ws) := by
  unfold traceIf
  split
  · exact Memory.wf_writeWords h off ws
  · exact h

/-- All that an engine step does to the trace memory is write one run of words, if the command is traced (R29, R83). -/
theorem engineStep_trace_cases (a : Avce) :
    (engineStep a).trace = a.trace ∨ ∃ off ws, (engineStep a).trace = traceIf a off ws := by
  cases hb : a.busy with
  | false => exact .inl (by rw [engineStep_idle hb])
  | true =>
    rw [engineStep_busy hb]
    cases hs : a.seq with
    | idle => exact .inl (by simp only [sequencedStep, hs])
    | aesKx i =>
      simp only [sequencedStep, hs, stepAesKx_trace]
      split <;> exact .inr ⟨_, _, rfl⟩
    | desPc1 | desKs | desIp | desRnd | desFp | aesArk0 | aesRnd | aesOut =>
      simp only [sequencedStep, hs]
      exact .inr ⟨_, _, rfl⟩

theorem startOf_trace {a : Avce} (hb : a.busy = false) (i : Instr) : (startOf i a).trace = a.trace := by
  rcases startOf_cases hb i with ⟨_, _, h⟩ | ⟨-, h⟩ | ⟨-, h⟩ <;> rw [h] <;> rfl

theorem startRejected_trace (v : Word) (e : DecodeError) (a : Avce) : (startRejected v e a).trace = a.trace := by
  obtain ⟨_, h⟩ := startRejected_eq v e a
  rw [h]
  rfl

theorem writeReg_trace (v : Word) (n : RegName) (a : Avce) : (writeReg a v n).trace = a.trace := by
  cases n <;> rfl

/-- Settles O37: only engine steps write the trace memory, and every write keeps its form. -/
theorem everyStepKeepsTheTraceMemoryCanonical : Obligations.EveryStepKeepsTheTraceMemoryCanonical := by
  intro s t hwf hstep
  refine step_keeps (P := fun a => a.trace.wf) ?reset ?engine ?start ?reject ?write hwf hstep
  case reset => exact Memory.wf_nil
  case engine =>
    intro a h
    rcases engineStep_trace_cases a with ht | ⟨off, ws, ht⟩ <;> rw [ht]
    · exact h
    · exact traceIf_wf h off ws
  case start =>
    intro i a hb h
    rwa [startOf_trace hb]
  case reject =>
    intro v e a _ _ h
    rwa [startRejected_trace]
  case write =>
    intro v n a _ _ h
    rwa [writeReg_trace]

end Sys2Proof.Machine
end

-- The proofs of the family 10_state.md: the registers of the two engines
section
/-! The engine registers hold what the key schedules and the rounds prescribe (10_state.md R32 to R35; R161, R162, R230,
R247): the registers of a key schedule are read as the function's values, and each engine step computes the next. -/

namespace Sys2Proof.Machine

/-! ### What the invariant says in each phase -/

theorem phaseInv_desPc1 {a : Avce} (h : a.seq = .desPc1) : PhaseInv a ↔ a.cmdr.alg = 1 := by
  simp only [PhaseInv, h]

theorem phaseInv_desKs {a : Avce} {r : Fin 16} (h : a.seq = .desKs r) :
    PhaseInv a ↔ a.cmdr.alg = 1 ∧ (a.c, a.d) = desHalves a.dkey r.val ∧ HasSubkeys a r.val := by
  simp only [PhaseInv, h]

theorem phaseInv_desIp {a : Avce} (h : a.seq = .desIp) :
    PhaseInv a ↔ a.cmdr.alg = 1 ∧ (a.c, a.d) = desHalves a.dkey 16 ∧ HasSubkeys a 16 := by
  simp only [PhaseInv, h]

theorem phaseInv_desRnd {a : Avce} {r : Fin 16} (h : a.seq = .desRnd r) :
    PhaseInv a ↔ a.cmdr.alg = 1 ∧ (a.c, a.d) = desHalves a.dkey 16 ∧ HasSubkeys a 16 ∧
      (a.l, a.r) = desPair a.cmdr.dec a.dtext a.dkey r.val := by
  simp only [PhaseInv, h]

theorem phaseInv_desFp {a : Avce} (h : a.seq = .desFp) :
    PhaseInv a ↔ a.cmdr.alg = 1 ∧ (a.c, a.d) = desHalves a.dkey 16 ∧ HasSubkeys a 16 ∧
      (a.l, a.r) = desPair a.cmdr.dec a.dtext a.dkey 16 := by
  simp only [PhaseInv, h]

theorem phaseInv_aesKx {a : Avce} {i : Fin 44} (h : a.seq = .aesKx i) :
    PhaseInv a ↔ a.cmdr.alg = 2 ∧ HasWords a i.val := by
  simp only [PhaseInv, h]

theorem phaseInv_aesArk0 {a : Avce} (h : a.seq = .aesArk0) : PhaseInv a ↔ a.cmdr.alg = 2 ∧ HasWords a 44 := by
  simp only [PhaseInv, h]

theorem phaseInv_aesRnd {a : Avce} {r : Fin 10} (h : a.seq = .aesRnd r) :
    PhaseInv a ↔ a.cmdr.alg = 2 ∧ HasWords a 44 ∧ a.st = aesState a.cmdr.dec a.atext a.akey r.val := by
  simp only [PhaseInv, h]

theorem phaseInv_aesOut {a : Avce} (h : a.seq = .aesOut) :
    PhaseInv a ↔ a.cmdr.alg = 2 ∧ HasWords a 44 ∧ a.st = aesState a.cmdr.dec a.atext a.akey 10 := by
  simp only [PhaseInv, h]

theorem phaseInv_idle {a : Avce} (h : a.seq = .idle) : PhaseInv a := by
  simp only [PhaseInv, h]

/-! ### DES -/

/-- Step (DES_KS, r+1) appends subkey `r+1` (R126, R131). -/
theorem hasSubkeys_stepDesKs {a : Avce} {r : Fin 16} (hcd : (a.c, a.d) = desHalves a.dkey r.val)
    (hk : HasSubkeys a r.val) : HasSubkeys (stepDesKs r a) (r.val + 1) := by
  intro j hj
  simp only [stepDesKs_k, stepDesKs_dkey]
  by_cases hjr : j = r
  · subst hjr
    simp [desSubkey, desHalves, ← hcd, rotateHalves]
  · have hne : r.val ≠ j.val := fun h => hjr (Fin.ext h.symm)
    simpa [hne] using hk j (by omega)

/-- The halves after step (DES_KS, r+1) are `(C, D)` of round `r+1` (R124, R131). -/
theorem stepDesKs_halves {a : Avce} {r : Fin 16} (hcd : (a.c, a.d) = desHalves a.dkey r.val) :
    ((stepDesKs r a).c, (stepDesKs r a).d) = desHalves (stepDesKs r a).dkey (r.val + 1) := by
  simp [desHalves, ← hcd, rotateHalves]

/-- A round reads the subkey `kidx` names (R128, R165). -/
theorem roundSubkey_eq {a : Avce} (hk : HasSubkeys a 16) (r : Fin 16) :
    roundSubkey r a = desSubkey a.dkey (kidx a.cmdr.dec (r.val + 1)) := by
  have hread : roundSubkey r a = desSubkey a.dkey ((if a.cmdr.dec then r.rev else r).val + 1) := hk _ (Fin.isLt _)
  have hindex : (if a.cmdr.dec then r.rev else r).val + 1 = kidx a.cmdr.dec (r.val + 1) := by
    cases a.cmdr.dec with
    | false => rfl
    | true =>
      simp only [kidx, if_true, Fin.val_rev]
      omega
  rw [hread, hindex]

theorem stepDesRnd_pair {a : Avce} {r : Fin 16} (hk : HasSubkeys a 16)
    (hlr : (a.l, a.r) = desPair a.cmdr.dec a.dtext a.dkey r.val) :
    ((stepDesRnd r a).l, (stepDesRnd r a).r) = desPair a.cmdr.dec a.dtext a.dkey (r.val + 1) := by
  simp [desPair, ← hlr, roundSubkey_eq hk]

theorem phaseInv_stepDesPc1 {a : Avce} (hs : a.seq = .desPc1) (hp : PhaseInv a) : PhaseInv (stepDesPc1 a) := by
  rw [phaseInv_desPc1 hs] at hp
  rw [phaseInv_desKs (stepDesPc1_seq a)]
  exact ⟨hp, rfl, fun j hj => absurd hj (Nat.not_lt_zero _)⟩

theorem phaseInv_stepDesKs {a : Avce} {r : Fin 16} (hs : a.seq = .desKs r) (hp : PhaseInv a) :
    PhaseInv (stepDesKs r a) := by
  obtain ⟨halg, hcd, hk⟩ := (phaseInv_desKs hs).mp hp
  have hcd' := stepDesKs_halves hcd
  have hk' := hasSubkeys_stepDesKs hcd hk
  have hseq := stepDesKs_seq r a
  split at hseq
  · exact (phaseInv_desKs hseq).mpr ⟨halg, hcd', hk'⟩
  · have hlast : r.val + 1 = 16 := by omega
    rw [hlast] at hcd' hk'
    exact (phaseInv_desIp hseq).mpr ⟨halg, hcd', hk'⟩

theorem phaseInv_stepDesIp {a : Avce} (hs : a.seq = .desIp) (hp : PhaseInv a) : PhaseInv (stepDesIp a) := by
  obtain ⟨halg, hcd, hk⟩ := (phaseInv_desIp hs).mp hp
  exact (phaseInv_desRnd (stepDesIp_seq a)).mpr ⟨halg, hcd, hk, rfl⟩

theorem phaseInv_stepDesRnd {a : Avce} {r : Fin 16} (hs : a.seq = .desRnd r) (hp : PhaseInv a) :
    PhaseInv (stepDesRnd r a) := by
  obtain ⟨halg, hcd, hk, hlr⟩ := (phaseInv_desRnd hs).mp hp
  have hlr' := stepDesRnd_pair hk hlr
  have hseq := stepDesRnd_seq r a
  split at hseq
  · exact (phaseInv_desRnd hseq).mpr ⟨halg, hcd, hk, hlr'⟩
  · have hlast : r.val + 1 = 16 := by omega
    rw [hlast] at hlr'
    exact (phaseInv_desFp hseq).mpr ⟨halg, hcd, hk, hlr'⟩

/-! ### AES -/

/-- Word `j` of the quad `k` is key word `4k + j` (R200). -/
theorem aesWordAt_quad (key : Block) (k : Nat) (j : Fin 4) : aesWordAt key (4 * k + j.val) = (aesQuad key k)[j] := by
  have hdiv : (4 * k + j.val) / 4 = k := by omega
  have hmod : (4 * k + j.val) % 4 = j.val := by omega
  simp only [aesWordAt, hdiv, hmod, Fin.getElem_fin]

/-- Words 0 to 3 are the key's own bytes (R201). -/
theorem aesWordAt_first (key : Block) {i : Nat} (h : i < 4) : aesWordAt key i = chunk key ⟨i, h⟩ := by
  have hquad := aesWordAt_quad key 0 ⟨i, h⟩
  simp only [Nat.mul_zero, Nat.zero_add] at hquad
  rw [hquad]
  match i, h with
  | 0, _ | 1, _ | 2, _ | 3, _ => rfl

/-- A special word, `i` a multiple of 4 (R206). -/
theorem aesWordAt_special (key : Block) {i : Nat} (h4 : 4 ≤ i) (hmod : i % 4 = 0) :
    aesWordAt key i = xorWord (specialTerm i (aesWordAt key (i - 1))) (aesWordAt key (i - 4)) := by
  obtain ⟨k, rfl⟩ : ∃ k, i = 4 * (k + 1) := ⟨i / 4 - 1, by omega⟩
  have hprev : 4 * (k + 1) - 1 = 4 * k + (3 : Fin 4).val := rfl
  have hback : 4 * (k + 1) - 4 = 4 * k + (0 : Fin 4).val := rfl
  rw [hprev, hback, aesWordAt_quad, aesWordAt_quad]
  exact aesWordAt_quad key (k + 1) 0

/-- An ordinary word (R207). -/
theorem aesWordAt_ordinary (key : Block) {i : Nat} (h4 : 4 ≤ i) (hmod : i % 4 ≠ 0) :
    aesWordAt key i = xorWord (aesWordAt key (i - 1)) (aesWordAt key (i - 4)) := by
  obtain ⟨k, j, rfl⟩ : ∃ (k : Nat) (j : Fin 3), i = 4 * (k + 1) + j.succ.val :=
    ⟨i / 4 - 1, ⟨i % 4 - 1, by omega⟩, by simp only [Fin.val_succ]; omega⟩
  have hprev : 4 * (k + 1) + j.succ.val - 1 = 4 * (k + 1) + j.castSucc.val := rfl
  have hback : 4 * (k + 1) + j.succ.val - 4 = 4 * k + j.succ.val := by omega
  rw [hprev, hback, aesWordAt_quad, aesWordAt_quad, aesWordAt_quad]
  match j with
  | 0 | 1 | 2 => rfl

/-- With the words below `i` in place, step (AES_KX, i) computes word `i` (R209). -/
theorem expandWord_eq {a : Avce} {i : Fin 44} (hw : HasWords a i.val) :
    expandWord a.akey a.w i = aesWordAt a.akey i.val := by
  by_cases h4 : i.val < 4
  · rw [expandWord, dif_pos h4, aesWordAt_first _ h4]
  · have hprev : prevWord a.w i = aesWordAt a.akey (i.val - 1) := hw ⟨i.val - 1, by omega⟩ (by simp only; omega)
    have hback : a.w[i.val - 4] = aesWordAt a.akey (i.val - 4) := hw ⟨i.val - 4, by omega⟩ (by simp only; omega)
    rw [expandWord, dif_neg h4, hprev, hback]
    split
    · rename_i hmod
      exact (aesWordAt_special _ (by omega) hmod).symm
    · rename_i hmod
      exact (aesWordAt_ordinary _ (by omega) hmod).symm

theorem hasWords_stepAesKx {a : Avce} {i : Fin 44} (hw : HasWords a i.val) :
    HasWords (stepAesKx i a) (i.val + 1) := by
  intro j hj
  simp only [stepAesKx_w, stepAesKx_akey, expandWord_eq hw]
  by_cases hji : j = i
  · subst hji
    simp
  · have hne : i.val ≠ j.val := fun h => hji (Fin.ext h.symm)
    simpa [hne] using hw j (by omega)

/-- The round key read from W is the schedule's (R208). -/
theorem roundKeyReg_eq {a : Avce} (hw : HasWords a 44) (k : Fin 11) :
    roundKeyReg a.w k = aesRoundKey a.akey k.val := by
  have hword : ∀ j : Fin 4, a.w[4 * k.val + j.val] = (aesQuad a.akey k.val)[j] := fun j =>
    (hw ⟨4 * k.val + j.val, by omega⟩ (by simp only; omega)).trans (aesWordAt_quad a.akey k.val j)
  have hquad : #v[a.w[4 * k.val], a.w[4 * k.val + 1], a.w[4 * k.val + 2], a.w[4 * k.val + 3]] =
      aesQuad a.akey k.val := by
    ext1 j hj
    match j, hj with
    | 0, _ => exact hword 0
    | 1, _ => exact hword 1
    | 2, _ => exact hword 2
    | 3, _ => exact hword 3
  rw [roundKeyReg, hquad, aesRoundKey]

/-- The data path's step `n` adds the round key that the direction names (R231, R232, R250, R251). -/
theorem roundKeyFor_eq {a : Avce} (hw : HasWords a 44) (n : Fin 11) :
    roundKeyFor a n = aesRoundKey a.akey (roundKeyIndex a.cmdr.dec n.val) := by
  have hindex : (if a.cmdr.dec then n.rev else n).val = roundKeyIndex a.cmdr.dec n.val := by
    cases a.cmdr.dec with
    | false => rfl
    | true =>
      simp only [roundKeyIndex, if_true, Fin.val_rev]
      omega
  rw [roundKeyFor, roundKeyReg_eq hw, hindex]

theorem stepAesRnd_state {a : Avce} {r : Fin 10} (hw : HasWords a 44)
    (hst : a.st = aesState a.cmdr.dec a.atext a.akey r.val) :
    (stepAesRnd r a).st = aesState a.cmdr.dec a.atext a.akey (r.val + 1) := by
  simp only [stepAesRnd_st, aesState, ← hst, roundKeyFor_eq hw, Fin.val_succ]

theorem phaseInv_stepAesKx {a : Avce} {i : Fin 44} (hs : a.seq = .aesKx i) (hp : PhaseInv a) :
    PhaseInv (stepAesKx i a) := by
  obtain ⟨halg, hw⟩ := (phaseInv_aesKx hs).mp hp
  have hw' := hasWords_stepAesKx hw
  have hseq := stepAesKx_seq i a
  split at hseq
  · exact (phaseInv_aesKx hseq).mpr ⟨halg, hw'⟩
  · have hlast : i.val + 1 = 44 := by omega
    rw [hlast] at hw'
    exact (phaseInv_aesArk0 hseq).mpr ⟨halg, hw'⟩

theorem phaseInv_stepAesArk0 {a : Avce} (hs : a.seq = .aesArk0) (hp : PhaseInv a) : PhaseInv (stepAesArk0 a) := by
  obtain ⟨halg, hw⟩ := (phaseInv_aesArk0 hs).mp hp
  refine (phaseInv_aesRnd (stepAesArk0_seq a)).mpr ⟨halg, hw, ?_⟩
  rw [stepAesArk0_st, roundKeyFor_eq hw]
  rfl

theorem phaseInv_stepAesRnd {a : Avce} {r : Fin 10} (hs : a.seq = .aesRnd r) (hp : PhaseInv a) :
    PhaseInv (stepAesRnd r a) := by
  obtain ⟨halg, hw, hst⟩ := (phaseInv_aesRnd hs).mp hp
  have hst' := stepAesRnd_state hw hst
  have hseq := stepAesRnd_seq r a
  split at hseq
  · exact (phaseInv_aesRnd hseq).mpr ⟨halg, hw, hst'⟩
  · have hlast : r.val + 1 = 10 := by omega
    rw [hlast] at hst'
    exact (phaseInv_aesOut hseq).mpr ⟨halg, hw, hst'⟩

/-! ### Every phase -/

theorem phaseInv_engineStep {a : Avce} (hp : PhaseInv a) : PhaseInv (engineStep a) := by
  cases hb : a.busy with
  | false => rwa [engineStep_idle hb]
  | true =>
    rcases engineStep_cases hb with ⟨-, h⟩ | ⟨hs, h⟩ | ⟨r, hs, h⟩ | ⟨hs, h⟩ | ⟨r, hs, h⟩ | ⟨-, h⟩ | ⟨i, hs, h⟩ |
      ⟨hs, h⟩ | ⟨r, hs, h⟩ | ⟨-, h⟩ <;> rw [h]
    · exact hp
    · exact phaseInv_stepDesPc1 hs hp
    · exact phaseInv_stepDesKs hs hp
    · exact phaseInv_stepDesIp hs hp
    · exact phaseInv_stepDesRnd hs hp
    · exact phaseInv_idle (stepDesFp_seq a)
    · exact phaseInv_stepAesKx hs hp
    · exact phaseInv_stepAesArk0 hs hp
    · exact phaseInv_stepAesRnd hs hp
    · exact phaseInv_idle (stepAesOut_seq a)

/-- The error entry of a START touches nothing of the engine (R93, R306). -/
theorem phaseInv_raiseError_clearForStart {cls : ErrClass} {sub : BitVec 4} {index : BitVec 8} {v : Word} {a : Avce}
    (hp : PhaseInv a) : PhaseInv (raiseError cls sub index (clearForStart v a)) := hp

theorem phaseInv_startOf {a : Avce} (hb : a.busy = false) (i : Instr) (hp : PhaseInv a) : PhaseInv (startOf i a) := by
  rcases startOf_cases hb i with ⟨_, _, h⟩ | ⟨-, h⟩ | ⟨-, h⟩ <;> rw [h]
  · exact phaseInv_raiseError_clearForStart hp
  · exact (phaseInv_desPc1 (latchDes_seq _ _ _)).mpr rfl
  · exact (phaseInv_aesKx (latchAes_seq _ _ _)).mpr ⟨rfl, fun j hj => absurd hj (Nat.not_lt_zero _)⟩

theorem phaseInv_startRejected (v : Word) (e : DecodeError) {a : Avce} (hp : PhaseInv a) :
    PhaseInv (startRejected v e a) := by
  obtain ⟨_, h⟩ := startRejected_eq v e a
  rw [h]
  exact phaseInv_raiseError_clearForStart hp

theorem phaseInv_writeReg (v : Word) (n : RegName) {a : Avce} (hp : PhaseInv a) : PhaseInv (writeReg a v n) := by
  cases n <;> exact hp

/-! ### The published result -/

/-- DOUT of a DES result: its two words, then zeros (R28). -/
def desDout (out : BitVec 64) : Vector Word 4 := #v[hiWord out, loWord out, 0, 0]

theorem stepDesFp_dout_eq (a : Avce) : (stepDesFp a).dout = desDout (finalPerm a.l a.r) := rfl

theorem toList_stepAesOut_dout (a : Avce) : (stepAesOut a).dout.toList = blockWords a.st := rfl

/-- The DES case speaks of the block only through `desDout`, so that an equation of blocks rewrites it. -/
theorem resultCorrect_iff (a : Avce) :
    ResultCorrect a ↔ (a.ok = true →
      (a.cmdr.alg = 1 ∧ a.dout = desDout (desBlock a.cmdr.dec a.dtext a.dkey)) ∨
      (a.cmdr.alg = 2 ∧ a.dout.toList = blockWords (aesState a.cmdr.dec a.atext a.akey 10))) :=
  Iff.rfl

theorem NoResult.resultCorrect {a : Avce} (h : NoResult a) : ResultCorrect a := by
  intro hok
  simp [h.ok] at hok

theorem SameResult.resultCorrect {a u : Avce} (h : SameResult a u) (hr : ResultCorrect a) : ResultCorrect u := by
  rw [resultCorrect_iff] at hr ⊢
  rwa [h.ok, h.cmdr, h.dout, h.dtext, h.dkey, h.atext, h.akey]

/-- DES_FP publishes the block function of the latched operands (R159, R161, R162, R176). -/
theorem resultCorrect_stepDesFp {a : Avce} (hs : a.seq = .desFp) (hp : PhaseInv a) : ResultCorrect (stepDesFp a) := by
  obtain ⟨halg, -, -, hlr⟩ := (phaseInv_desFp hs).mp hp
  have hout : finalPerm a.l a.r = desBlock a.cmdr.dec a.dtext a.dkey := by
    rw [desBlock, ← hlr]
  refine (resultCorrect_iff _).mpr fun _ => .inl ⟨halg, ?_⟩
  rw [stepDesFp_dout_eq, hout, stepDesFp_cmdr, stepDesFp_dtext, stepDesFp_dkey]

/-- AES_OUT publishes the block function of the latched operands (R230, R247, R266). -/
theorem resultCorrect_stepAesOut {a : Avce} (hs : a.seq = .aesOut) (hp : PhaseInv a) : ResultCorrect (stepAesOut a) := by
  obtain ⟨halg, -, hst⟩ := (phaseInv_aesOut hs).mp hp
  refine (resultCorrect_iff _).mpr fun _ => .inr ⟨halg, ?_⟩
  rw [toList_stepAesOut_dout]
  exact congrArg blockWords hst

theorem engineInv_reset : EngineInv Avce.reset := ⟨phaseInv_idle rfl, noResult_reset.resultCorrect⟩

theorem engineInv_engineStep {a : Avce} (h : EngineInv a) : EngineInv (engineStep a) := by
  refine ⟨phaseInv_engineStep h.phase, ?_⟩
  rcases engineStep_result_cases a with hsame | ⟨-, hs, he⟩ | ⟨-, hs, he⟩
  · exact hsame.resultCorrect h.result
  · rw [he]
    exact resultCorrect_stepDesFp hs h.phase
  · rw [he]
    exact resultCorrect_stepAesOut hs h.phase

/-- Settles O35: each engine step takes its phase's registers to those of the next phase, and everything else that
changes the registers of AVCE leaves the engine alone or starts a command from the first phase. -/
theorem everyStepKeepsTheCipherState : Obligations.EveryStepKeepsTheCipherState := by
  intro s t hinv hstep
  refine step_keeps engineInv_reset (fun a => engineInv_engineStep) ?start ?reject ?write hinv hstep
  case start => exact fun i a hb h => ⟨phaseInv_startOf hb i h.phase, (startOf_noResult hb i).resultCorrect⟩
  case reject =>
    exact fun v e a _ _ h => ⟨phaseInv_startRejected v e h.phase, (startRejected_noResult v e a).resultCorrect⟩
  case write =>
    exact fun v n a _ _ h => ⟨phaseInv_writeReg v n h.phase, (writeReg_sameResult v n a).resultCorrect h.result⟩

end Sys2Proof.Machine
end

-- The proofs of the family 10_state.md: the result registers, and the reset state
section
/-! OUT_BUF is the hex string of the block in DOUT, and without a result every result register is 0 (10_state.md R27 to
R29); the state after reset has every invariant (R38, R331). -/

namespace Sys2Proof.Machine

theorem NoResult.resultInv {a : Avce} (h : NoResult a) : ResultInv a := by
  have hok : a.ok ≠ true := by simp [h.ok]
  refine ⟨fun _ => ⟨h.outLen, h.traceLen, fun i => ?outBuf, fun i => ?dout⟩, fun ho => absurd ho hok,
    fun ho => absurd ho hok, fun ho => absurd ho hok, fun ho => absurd ho hok⟩
  case outBuf => simp [h.outBuf]
  case dout => simp [h.dout]

theorem ResultInv.noResult {a : Avce} (h : ResultInv a) (hok : a.ok = false) : NoResult a := by
  obtain ⟨houtLen, htraceLen, houtBuf, hdout⟩ := h.empty_unless_ok hok
  refine ⟨hok, houtLen, htraceLen, Vector.ext fun i hi => ?outBuf, Vector.ext fun i hi => ?dout⟩
  case outBuf => simpa using houtBuf ⟨i, hi⟩
  case dout => simpa using hdout ⟨i, hi⟩

theorem SameResult.resultInv {a u : Avce} (h : SameResult a u) (hr : ResultInv a) : ResultInv u := by
  obtain ⟨hempty, hlength, hdes, haes, htrace⟩ := hr
  constructor <;> simpa only [h.ok, h.outLen, h.traceLen, h.outBuf, h.dout, h.cmdr]

theorem getElem_putDigits {m : Nat} (n : Nat) (B : BitVec m) (buf : Vector Word Config.bufCap) (i : Fin 32) :
    (putDigits n B buf)[i] = if i.val < n then hexEncAt B i.val else buf[i] := by
  simp [putDigits]

/-- DES_FP writes the 16 digits of its result into an empty OUT_BUF (R176). -/
theorem resultInv_stepDesFp {a : Avce} (hnone : NoResult a) (halg : a.cmdr.alg = 1) : ResultInv (stepDesFp a) := by
  constructor
  case empty_unless_ok => simp
  case length_of_result => simp [halg]
  case des_digits =>
    intro _ _
    refine ⟨rfl, rfl, fun i => ?_⟩
    have hword : (stepDesFp a).dout[0] ++ (stepDesFp a).dout[1] = finalPerm a.l a.r :=
      hiWord_append_loWord (finalPerm a.l a.r)
    rw [hword, stepDesFp_outBuf, getElem_putDigits, hnone.outBuf]
    simp
  case aes_digits => exact fun _ h => absurd (halg.symm.trans h) (by decide)
  case trace_length => simp [halg]

/-- AES_OUT writes the 32 digits of its result into OUT_BUF (R266). -/
theorem resultInv_stepAesOut {a : Avce} (halg : a.cmdr.alg = 2) : ResultInv (stepAesOut a) := by
  constructor
  case empty_unless_ok => simp
  case length_of_result => simp [halg]
  case des_digits => exact fun _ h => absurd (halg.symm.trans h) (by decide)
  case aes_digits =>
    intro _ _ i
    have hword : (stepAesOut a).dout[0] ++ (stepAesOut a).dout[1] ++ (stepAesOut a).dout[2] ++ (stepAesOut a).dout[3] =
        blockBits a.st := by
      rw [stepAesOut_dout]
      exact blockWord_append a.st
    rw [hword, stepAesOut_outBuf, getElem_putDigits, if_pos i.isLt]
  case trace_length => simp [halg]

/-- While BUSY nothing is published, so the last step of a command finds the result registers empty. -/
theorem resultInv_engineStep {a : Avce} (hflags : FlagsInv a) (hphase : PhaseInv a) (hr : ResultInv a) :
    ResultInv (engineStep a) := by
  rcases engineStep_result_cases a with hsame | ⟨hb, hs, he⟩ | ⟨-, hs, he⟩
  · exact hsame.resultInv hr
  · rw [he]
    have hnone : NoResult a := hr.noResult (hflags.busy_not_finished hb).2
    exact resultInv_stepDesFp hnone ((phaseInv_desFp hs).mp hphase).1
  · rw [he]
    exact resultInv_stepAesOut ((phaseInv_aesOut hs).mp hphase).1

/-- Settles O36: the last step of a command publishes its result, every START and a reset clear the result registers, and
nothing else touches them. -/
theorem everyStepKeepsTheResult : Obligations.EveryStepKeepsTheResult := by
  intro s t hflags hengine hr hstep
  rcases step_avce_cases hstep with he | he | he | ⟨i, hb, he⟩ | ⟨v, e, -, -, he⟩ | ⟨v, n, -, -, he⟩ <;> rw [he]
  · exact hr
  · exact resultInv_engineStep hflags hengine.phase hr
  · exact noResult_reset.resultInv
  · exact (startOf_noResult hb i).resultInv
  · exact (startRejected_noResult v e s.avce).resultInv
  · exact (writeReg_sameResult v n s.avce).resultInv hr

/-- R38, R39: after reset the engine is idle, nothing has finished and no error is recorded. -/
theorem flagsInv_reset : FlagsInv Avce.reset := by
  constructor <;> decide

/-- Settles O39: with no result published and the engine idle, every clause is about registers that are 0. -/
theorem resetHasEveryInvariant : Obligations.ResetHasEveryInvariant :=
  ⟨flagsInv_reset, engineInv_reset, noResult_reset.resultInv, Memory.wf_nil, .inl rfl⟩

end Sys2Proof.Machine
end

-- The proofs of the family 20_memory.md: the register space, host writes, and the step of a command
section
/-! What a read and a write of a register number do, through the name that R51 gives the number (20_memory.md R51 to
R57, R59). -/

namespace Sys2Proof.Machine

/-! ### Register numbers -/

/-- Every number of R51's table is an 11-bit number (R50). -/
theorem RegName.lt_of_holds {r : RegName} {k : Nat} (h : r.holds k) : k < 2 ^ 11 := by
  cases r <;> simp only [RegName.holds] at h <;> omega

theorem regName_ofNat {r : RegName} {k : Nat} (h : r.holds k) : regName (BitVec.ofNat 11 k) = r := by
  rw [regName_eq_iff, BitVec.toNat_ofNat, Nat.mod_eq_of_lt (RegName.lt_of_holds h)]
  exact h

/-! ### Reads -/

theorem hostRead_of_holds (a : Avce) {n : RegNo} {r : RegName} (h : r.holds n.toNat) : hostRead a n = readReg a r := by
  rw [hostRead, (regName_eq_iff n r).mpr h]

theorem hostRead_ofNat (a : Avce) {r : RegName} {k : Nat} (h : r.holds k) :
    hostRead a (BitVec.ofNat 11 k) = readReg a r := by
  rw [hostRead, regName_ofNat h]

theorem gatedTrace_of_lt {a : Avce} {i : Nat} (h : i < a.traceLen.toNat) : gatedTrace a i = a.trace.readWord i :=
  if_pos h

theorem gatedTrace_of_le {a : Avce} {i : Nat} (h : a.traceLen.toNat ≤ i) : gatedTrace a i = 0 :=
  if_neg (Nat.not_lt.mpr h)

/-- Settles O47: each number is that of one register, whose reading `readReg` gives; TRACE reads through its gate. -/
theorem registerMapReads : Obligations.RegisterMapReads := by
  intro a
  refine ⟨hostRead_ofNat a (r := .id) rfl, hostRead_ofNat a (r := .cmd) rfl, hostRead_ofNat a (r := .status) rfl,
    hostRead_ofNat a (r := .errinfo) rfl, hostRead_ofNat a (r := .textLen) rfl, hostRead_ofNat a (r := .keyLen) rfl,
    hostRead_ofNat a (r := .outLen) rfl, hostRead_ofNat a (r := .traceLen) rfl,
    fun i => hostRead_ofNat a (r := .dout i) rfl, fun i => hostRead_ofNat a (r := .textBuf i) rfl,
    fun i => hostRead_ofNat a (r := .keyBuf i) rfl, fun i => hostRead_ofNat a (r := .outBuf i) rfl,
    fun i hi => ?stored, fun i hi => ?beyond⟩
  case stored => exact (hostRead_ofNat a (r := .trace i) rfl).trans (gatedTrace_of_lt hi)
  case beyond => exact (hostRead_ofNat a (r := .trace i) rfl).trans (gatedTrace_of_le hi)

/-! ### Writes -/

/-- A START while BUSY changes nothing (R94). -/
theorem startOf_busy {a : Avce} (hb : a.busy = true) (i : Instr) : startOf i a = a := by
  simp only [startOf_eq, startDes, startAes, hb, if_true, ite_self]

theorem exec_busy {s : State} (hb : s.avce.busy = true) (i : Instr) : exec i s = .next s := by
  rw [exec_eq, startOf_busy hb]

theorem hostWrite_busy {s : State} (hb : s.avce.busy = true) (n : RegNo) (v : Word) : hostWrite n v s = .next s := by
  rw [hostWrite, if_pos hb]

theorem hostWrite_cmd {s : State} (hb : s.avce.busy = false) {n : RegNo} (hn : regName n = .cmd) (v : Word) :
    hostWrite n v s = startWord v s := by
  rw [hostWrite, if_neg (Bool.eq_false_iff.mp hb), if_pos hn]

theorem hostWrite_of_ne_cmd {s : State} (hb : s.avce.busy = false) {n : RegNo} (hn : regName n ≠ .cmd) (v : Word) :
    hostWrite n v s = .next { s with avce := writeReg s.avce v (regName n) } := by
  rw [hostWrite, if_neg (Bool.eq_false_iff.mp hb), if_neg hn]

/-- The write of a register other than CMD, by its number in R51's table. -/
theorem hostWrite_ofNat {s : State} (hb : s.avce.busy = false) {r : RegName} {k : Nat} (h : r.holds k) (hr : r ≠ .cmd)
    (v : Word) : hostWrite (BitVec.ofNat 11 k) v s = .next { s with avce := writeReg s.avce v r } := by
  have hname : regName (BitVec.ofNat 11 k) = r := regName_ofNat h
  rw [hostWrite_of_ne_cmd hb (hname ▸ hr), hname]

/-- Settles O11: a host write tests BUSY first, and so does every START. -/
theorem writesWhileBusyAreIgnored : Obligations.WritesWhileBusyAreIgnored :=
  ⟨fun n v _ hb => hostWrite_busy hb n v, fun i _ hb => exec_busy hb i⟩

/-- The registers on which a write can have an effect: CMD and the input registers (R54, R56). -/
def RegName.writable : RegName → Bool
  | .cmd | .textLen | .keyLen | .textBuf _ | .keyBuf _ => true
  | .id | .status | .errinfo | .outLen | .traceLen | .dout _ | .outBuf _ | .trace _ | .unmapped => false

theorem RegName.writable_iff {r : RegName} {k : Nat} (h : r.holds k) :
    r.writable = true ↔ k = 0x001 ∨ k = 0x004 ∨ k = 0x005 ∨ (0x020 ≤ k ∧ k ≤ 0x05F) := by
  cases r with
  | cmd | textLen | keyLen | textBuf | keyBuf =>
    simp only [RegName.holds] at h
    exact ⟨fun _ => by omega, fun _ => rfl⟩
  | id | status | errinfo | outLen | traceLen | dout | outBuf | trace | unmapped =>
    simp only [RegName.holds] at h
    exact ⟨nofun, fun _ => by omega⟩

theorem writeReg_of_not_writable {r : RegName} (h : r.writable = false) (v : Word) (a : Avce) : writeReg a v r = a := by
  cases r with
  | cmd | textLen | keyLen | textBuf | keyBuf => cases h
  | id | status | errinfo | outLen | traceLen | dout | outBuf | trace | unmapped => rfl

theorem hostWrite_of_not_writable {n : RegNo} (h : (regName n).writable = false) (v : Word) (s : State) :
    hostWrite n v s = .next s := by
  cases hb : s.avce.busy with
  | true => exact hostWrite_busy hb n v
  | false =>
    have hn : regName n ≠ .cmd := fun hcmd => by simp [hcmd, RegName.writable] at h
    rw [hostWrite_of_ne_cmd hb hn, writeReg_of_not_writable h]

/-- Outside CMD and the input registers no write has an effect, BUSY or not (R53, R54, R57). -/
theorem hostWrite_inert {n : RegNo}
    (h : ¬(n.toNat = 0x001 ∨ n.toNat = 0x004 ∨ n.toNat = 0x005 ∨ (0x020 ≤ n.toNat ∧ n.toNat ≤ 0x05F))) (v : Word)
    (s : State) : hostWrite n v s = .next s :=
  hostWrite_of_not_writable (Bool.eq_false_iff.mpr ((RegName.writable_iff (regName_holds n)).not.mpr h)) v s

/-- Settles O48: R51's table puts neither kind of number in the ranges where a write has an effect. -/
theorem unmappedAndReadOnlyAccessesAreInert : Obligations.UnmappedAndReadOnlyAccessesAreInert := by
  refine ⟨fun n a h => hostRead_of_holds a (r := .unmapped) h, fun n v s h => hostWrite_inert ?_ v s⟩
  unfold UnmappedNo ReadOnlyNo at h
  omega

/-- Settles O49: the input registers take the word by their numbers, CMD takes it to START, and every other number is
outside the ranges where a write has an effect. -/
theorem inputWritesStoreTheWholeWord : Obligations.InputWritesStoreTheWholeWord := by
  intro v s hb
  refine ⟨hostWrite_ofNat hb (r := .textLen) rfl nofun v, hostWrite_ofNat hb (r := .keyLen) rfl nofun v,
    fun i => hostWrite_ofNat hb (r := .textBuf i) rfl nofun v, fun i => hostWrite_ofNat hb (r := .keyBuf i) rfl nofun v,
    hostWrite_cmd hb (regName_ofNat (r := .cmd) rfl) v, fun n hcmd htext hkey hbuf => hostWrite_inert ?_ v s⟩
  omega

/-! ### The step of a command -/

/-- The word of a command decodes to it (R80, R85). -/
theorem decode_encode (i : Instr) : decode (encode i) = .command i := by
  cases i <;> rfl

/-- The write of a command's word to CMD is the command, also while BUSY, when both do nothing (R57, R93, R94). -/
theorem hostWrite_command {n : RegNo} (hn : regName n = .cmd) {v : Word} {i : Instr} (hd : decode v = .command i)
    (s : State) : hostWrite n v s = exec i s := by
  cases hb : s.avce.busy with
  | true => rw [hostWrite_busy hb, exec_busy hb]
  | false => simp only [hostWrite_cmd hb hn, startWord, hd]

theorem regName_cmdRegNo : regName cmdRegNo = .cmd := regName_ofNat (r := .cmd) rfl

theorem step_of_command {s : State} {v : Word} {i : Instr} {rest : List Event}
    (h : s.schedule = .wr cmdRegNo v :: rest) (hd : decode v = .command i) :
    step s = exec i { s with schedule := rest } := by
  rw [step_of_wr h, hostWrite_command regName_cmdRegNo hd]

/-- Settles O42: a step takes the write, and the write of a command's word to CMD is the command. -/
theorem stepRunsTheDecodedCommand : Obligations.StepRunsTheDecodedCommand := by
  refine ⟨fun s v i rest h hd _ => step_of_command h hd, fun s i => ?fetched⟩
  case fetched =>
    have hword : BitVec.ofNat 32 ((encode i).toNat % 2 ^ 32) = encode i := by
      rw [Nat.mod_eq_of_lt (encode i).isLt, BitVec.ofNat_toNat, BitVec.setWidth_eq]
    have hfetch : s.withFetchWord 32 (encode i).toNat = scheduleCommand (encode i) s := by
      rw [State.withFetchWord, hword]
    rw [hfetch]
    exact step_of_command rfl (decode_encode i)

end Sys2Proof.Machine
end

-- The proofs of the family 20_memory.md: the host against a command in progress
section
/-! Reads and writes between the engine's steps leave a command in progress alone (00_scope.md R14; 20_memory.md R57,
R63). -/

namespace Sys2Proof.Machine

theorem countEngine_append (es fs : List Event) : countEngine (es ++ fs) = countEngine es + countEngine fs :=
  List.countP_append

theorem countEngine_cons (e : Event) (es : List Event) : countEngine (e :: es) = countEngine [e] + countEngine es :=
  countEngine_append [e] es

/-- An engine that is BUSY after some steps was BUSY before them: an idle one stays idle. -/
theorem busy_of_engineSteps_busy {n : Nat} {a : Avce} (h : (engineSteps n a).busy = true) : a.busy = true := by
  cases hb : a.busy with
  | true => rfl
  | false => rw [engineSteps_idle hb, hb] at h; exact h

/-- While BUSY a read, a write or an engine step changes the registers by the engine steps in it alone: one or none. -/
theorem step_of_isPlain {s : State} {e : Event} {rest : List Event} (hb : s.avce.busy = true)
    (h : s.schedule = e :: rest) (he : e.isPlain = true) :
    ∃ t, step s = .next t ∧ t.avce = engineSteps (countEngine [e]) s.avce ∧ t.schedule = rest := by
  cases e with
  | rd n => exact ⟨_, step_of_rd h, rfl, rfl⟩
  | wr n v =>
    have hignored := hostWrite_busy (s := { s with schedule := rest }) hb n v
    exact ⟨_, (step_of_wr h).trans hignored, rfl, rfl⟩
  | engine => exact ⟨_, step_of_engine h, rfl, rfl⟩
  | poll | reset => cases he

/-- Settles O44, by induction on the events before the last: each comes while BUSY, so it adds its engine steps and
nothing else. -/
theorem hostAccessesCannotDisturbACommand : Obligations.HostAccessesCannotDisturbACommand := by
  intro s es
  induction es generalizing s with
  | nil =>
    intro rest e hs _ he hb
    obtain ⟨t, hstep, havce, hrest⟩ := step_of_isPlain hb hs he
    exact ⟨t, core_run_succ 0 s t hstep, havce, hrest⟩
  | cons e₀ es ih =>
    intro rest e hs hes he hb
    obtain ⟨t, hstep, havce, hrest⟩ :=
      step_of_isPlain (busy_of_engineSteps_busy hb) hs (hes e₀ List.mem_cons_self)
    rw [countEngine_cons, engineSteps_add, ← havce] at hb
    obtain ⟨u, hrun, huavce, hurest⟩ := ih t rest e hrest (fun e' h => hes e' (List.mem_cons_of_mem e₀ h)) he hb
    refine ⟨u, (core_run_succ _ s t hstep).trans hrun, ?_, hurest⟩
    rw [huavce, havce, ← engineSteps_add, ← countEngine_cons, List.cons_append]

end Sys2Proof.Machine
end

-- The proofs of the family 30_encoding.md: the command words
section
/-! The decoder and the encoder of command words are inverse to each other, through the four fields of a word
(30_encoding.md R80 to R87). -/

namespace Sys2Proof.Machine

/-! ### A word and its fields -/

/-- The four fields are all of the word (R80). -/
theorem wordOf_fieldsOf (v : Word) : wordOf (fieldsOf v) = v := by
  apply BitVec.eq_of_getLsbD_eq
  intro i hi
  simp only [wordOf, fieldsOf, BitVec.getLsbD_append, BitVec.getLsbD_extractLsb', BitVec.getLsbD_ofBool]
  have hplace : i < 4 ∨ i = 4 ∨ i = 5 ∨ 6 ≤ i := by omega
  rcases hplace with halg | rfl | rfl | hrsv
  · simp [halg]
  · simp
  · simp
  · have hindex : 6 + (i - 4 - 1 - 1) = i := by omega
    have hwidth : i - 4 - 1 - 1 < 26 := by omega
    have hbelow : ¬i < 4 ∧ ¬i - 4 < 1 ∧ ¬i - 4 - 1 < 1 := by omega
    simp [hindex, hwidth, hbelow]

theorem fieldsOf_encode (i : Instr) : fieldsOf (encode i) = i.fields := by
  cases i <;> rfl

/-- The opcode map's row of a command is what names it (R85). -/
theorem fields_commandOf (aes dec trc : Bool) :
    (commandOf aes dec trc).fields = ⟨if aes then 2 else 1, dec, trc, 0⟩ := by
  cases aes <;> cases dec <;> cases trc <;> rfl

/-! ### Decoding -/

/-- The two tests of R86 leave the ALG of a command and a zero RSV. -/
theorem decode_eq_command {v : Word} {i : Instr} (h : decode v = .command i) :
    ((fieldsOf v).alg = 1 ∨ (fieldsOf v).alg = 2) ∧ (fieldsOf v).rsv = 0 ∧
      i = commandOf ((fieldsOf v).alg == 2) (fieldsOf v).dec (fieldsOf v).trc := by
  unfold decode at h
  split at h
  · rename_i halg
    split at h
    · rename_i hrsv
      injection h with hi
      exact ⟨by simpa [CommandFields.algRecognised] using halg, by simpa [CommandFields.rsvZero] using hrsv, hi.symm⟩
    · cases h
  · cases h

theorem fields_of_decode {v : Word} {i : Instr} (h : decode v = .command i) : i.fields = fieldsOf v := by
  obtain ⟨halg, hrsv, rfl⟩ := decode_eq_command h
  have hback : (if (fieldsOf v).alg == 2 then 2 else 1) = (fieldsOf v).alg := by
    rcases halg with h | h <;> rw [h] <;> rfl
  rw [fields_commandOf, hback, ← hrsv]

/-- A word with the fields of a command is the command's word, since the fields are all of it (R80, R85). -/
theorem decode_eq_command_iff (v : Word) (i : Instr) : decode v = .command i ↔ v = encode i := by
  constructor
  · intro h
    rw [encode, fields_of_decode h, wordOf_fieldsOf]
  · rintro rfl
    exact decode_encode i

/-- Settles O1: a word is rebuilt from its fields, and a word that decodes has the fields of its command. -/
theorem legalWordsAreTheEightCommandWords : Obligations.LegalWordsAreTheEightCommandWords :=
  ⟨decode_eq_command_iff, rfl, rfl, rfl, rfl, rfl, rfl, rfl, rfl, fieldsOf_encode .desEnc, fieldsOf_encode .desDec,
    fieldsOf_encode .desEncT, fieldsOf_encode .desDecT, fieldsOf_encode .aesEnc, fieldsOf_encode .aesDec,
    fieldsOf_encode .aesEncT, fieldsOf_encode .aesDecT⟩

/-! ### The opcode table -/

theorem decodeTableWord_of_command {v : Word} {i : Instr} (h : decode v = .command i) :
    decodeTableWord 32 v.toNat = some i := by
  have hmod : v.toNat % 2 ^ 32 = v.toNat := Nat.mod_eq_of_lt v.isLt
  simp only [decodeTableWord, hmod, v.isLt, if_true, BitVec.ofNat_toNat, BitVec.setWidth_eq, h]

theorem decodeTableWord_of_rejected {v : Word} {e : DecodeError} (h : decode v = .rejected e) :
    decodeTableWord 32 v.toNat = none := by
  have hmod : v.toNat % 2 ^ 32 = v.toNat := Nat.mod_eq_of_lt v.isLt
  simp only [decodeTableWord, hmod, v.isLt, if_true, BitVec.ofNat_toNat, BitVec.setWidth_eq, h]

theorem decodeTableWord_encode (i : Instr) : decodeTableWord 32 (encode i).toNat = some i :=
  decodeTableWord_of_command (decode_encode i)

/-- Settles O2: the eight rows hold the words that `encode` gives, and the other four fail one of the tests of R86. -/
theorem opcodeTableWordsDecode : Obligations.OpcodeTableWordsDecode :=
  ⟨decodeTableWord_encode .desEnc, decodeTableWord_encode .desDec, decodeTableWord_encode .desEncT,
    decodeTableWord_encode .desDecT, decodeTableWord_encode .aesEnc, decodeTableWord_encode .aesDec,
    decodeTableWord_encode .aesEncT, decodeTableWord_encode .aesDecT,
    decodeTableWord_of_rejected (v := 0x00000000) (e := .unknownAlgorithm) rfl,
    decodeTableWord_of_rejected (v := 0x00000003) (e := .unknownAlgorithm) rfl,
    decodeTableWord_of_rejected (v := 0x00000041) (e := .reservedBits) rfl,
    decodeTableWord_of_rejected (v := 0x80000002) (e := .reservedBits) rfl⟩

end Sys2Proof.Machine
end

-- The proofs of the family 30_encoding.md: START
section
/-! What a START leaves: the state of a passing one, and what no START changes (30_encoding.md R93). -/

namespace Sys2Proof.Machine

theorem startDes_of_valid {a : Avce} (hb : a.busy = false) (hv : OperandsValid needDes a) (v : Word) (dec trc : Bool) :
    startDes v dec trc a = latchDes dec trc (clearForStart v a) := by
  have hnone : operandFault needDes a = none := (operandFault_none_iff needDes (by decide) a).mpr hv
  simp only [startDes, hb, hnone, Bool.false_eq_true, if_false]

theorem startAes_of_valid {a : Avce} (hb : a.busy = false) (hv : OperandsValid needAes a) (v : Word) (dec trc : Bool) :
    startAes v dec trc a = latchAes dec trc (clearForStart v a) := by
  have hnone : operandFault needAes a = none := (operandFault_none_iff needAes (by decide) a).mpr hv
  simp only [startAes, hb, hnone, Bool.false_eq_true, if_false]

/-- The passing START of a DES command (R93, R170). -/
theorem exec_of_desValid {i : Instr} (halg : i.fields.alg = 1) {s : State} (hb : s.avce.busy = false)
    (hv : OperandsValid needDes s.avce) :
    exec i s = .next { s with avce := latchDes i.fields.dec i.fields.trc (clearForStart (encode i) s.avce) } := by
  rw [exec_eq, startOf_eq, if_pos halg, startDes_of_valid hb hv]

/-- The passing START of an AES command (R93, R260). -/
theorem exec_of_aesValid {i : Instr} (halg : i.fields.alg ≠ 1) {s : State} (hb : s.avce.busy = false)
    (hv : OperandsValid needAes s.avce) :
    exec i s = .next { s with avce := latchAes i.fields.dec i.fields.trc (clearForStart (encode i) s.avce) } := by
  rw [exec_eq, startOf_eq, if_neg halg, startAes_of_valid hb hv]

/-- Settles O6: valid operands pass the test of step 4, and the state named is the cleared one with its operands
latched. -/
theorem desStartLatchesAndGoesBusy : Obligations.DesStartLatchesAndGoesBusy := by
  intro i s hi hb hv
  have halg : i.fields.alg = 1 := by rcases hi with rfl | rfl | rfl | rfl <;> rfl
  exact exec_of_desValid halg hb hv

/-- Settles O7: as for DES, with the ALG of the AES commands. -/
theorem aesStartLatchesAndGoesBusy : Obligations.AesStartLatchesAndGoesBusy := by
  intro i s hi hb hv
  have halg : i.fields.alg ≠ 1 := by rcases hi with rfl | rfl | rfl | rfl <;> decide
  exact exec_of_aesValid halg hb hv

/-- `u` has the engine registers, the trace memory and the input registers of `a`: those that R93 says no START
changes. -/
structure SameEngineAndInputs (a u : Avce) : Prop where
  halves : u.c = a.c ∧ u.d = a.d
  pair : u.l = a.l ∧ u.r = a.r
  subkeys : u.k = a.k
  aesState : u.st = a.st
  words : u.w = a.w
  trace : u.trace = a.trace
  buffers : u.textBuf = a.textBuf ∧ u.keyBuf = a.keyBuf
  lengths : u.textLen = a.textLen ∧ u.keyLen = a.keyLen

/-- The last sentence of R93; while BUSY a START changes nothing at all (R94). -/
theorem startOf_sameEngineAndInputs (i : Instr) (a : Avce) : SameEngineAndInputs a (startOf i a) := by
  cases hb : a.busy with
  | true =>
    rw [startOf_busy hb]
    exact ⟨⟨rfl, rfl⟩, ⟨rfl, rfl⟩, rfl, rfl, rfl, rfl, ⟨rfl, rfl⟩, ⟨rfl, rfl⟩⟩
  | false =>
    rcases startOf_cases hb i with ⟨_, _, h⟩ | ⟨-, h⟩ | ⟨-, h⟩ <;> rw [h] <;>
      exact ⟨⟨rfl, rfl⟩, ⟨rfl, rfl⟩, rfl, rfl, rfl, rfl, ⟨rfl, rfl⟩, ⟨rfl, rfl⟩⟩

/-- Settles O12: every command answers the state that its START leaves. -/
theorem startLeavesEngineTraceAndInputs : Obligations.StartLeavesEngineTraceAndInputs := by
  intro i s
  obtain ⟨⟨hc, hd⟩, ⟨hl, hr⟩, hk, hst, hw, htrace, ⟨htext, hkey⟩, htextLen, hkeyLen⟩ :=
    startOf_sameEngineAndInputs i s.avce
  exact ⟨_, exec_eq i s, rfl, rfl, hc, hd, hl, hr, hk, hst, hw, htrace, htext, hkey, htextLen, hkeyLen⟩

end Sys2Proof.Machine
end

-- The proofs of the family 30_encoding.md: the flags
section
/-! The invariant of the flags by what AVCE is doing: a command in progress, its result, an error, or nothing yet
(10_state.md R23, R24, R39). -/

namespace Sys2Proof.Machine

/-- The CMDR fields are those of CMD, and CMD is the word of a command (R31, R39 (g)). -/
def CmdrDecoded (a : Avce) : Prop :=
  a.cmdr.alg = (fieldsOf a.cmd).alg ∧ a.cmdr.dec = (fieldsOf a.cmd).dec ∧ a.cmdr.trc = (fieldsOf a.cmd).trc ∧
    (fieldsOf a.cmd).rsv = 0

/-- A command is in progress: what the invariant of the flags says while BUSY. -/
structure InProgress (a : Avce) : Prop where
  busy : a.busy = true
  sequenced : a.seq ≠ .idle
  done : a.done = false
  ok : a.ok = false
  noError : a.errinfo = ⟨0, 0, 0⟩
  outLen : a.outLen = 0
  traceLen : a.traceLen = 0
  command : CmdrDecoded a

/-- An error is recorded: DONE without OK, a CODE, and no result (R306). -/
structure Failed (a : Avce) : Prop where
  busy : a.busy = false
  idle : a.seq = .idle
  done : a.done = true
  ok : a.ok = false
  code : a.errinfo.code ≠ 0
  outLen : a.outLen = 0
  traceLen : a.traceLen = 0

/-- A result is published (R176, R266). -/
structure Succeeded (a : Avce) : Prop where
  busy : a.busy = false
  idle : a.seq = .idle
  done : a.done = true
  ok : a.ok = true
  noError : a.errinfo = ⟨0, 0, 0⟩
  outLen : a.outLen ≠ 0
  traceLen : a.traceLen ≠ 0 → a.cmdr.trc = true

theorem InProgress.flagsInv {a : Avce} (h : InProgress a) : FlagsInv a := by
  obtain ⟨hbusy, hseq, hdone, hok, herr, hout, htrace, hcmd⟩ := h
  exact
    { busy_iff_sequenced := by simp [hbusy, hseq]
      busy_not_finished := fun _ => ⟨hdone, hok⟩
      ok_finished := by simp [hok]
      failed_iff_code := by simp [hdone, herr]
      outLen_iff_ok := by simp [hout, hok]
      traceLen_only_traced := fun h => absurd htrace h
      busy_command := fun _ => hcmd
      no_code_no_cause := fun _ => by simp [herr] }

theorem Failed.flagsInv {a : Avce} (h : Failed a) : FlagsInv a := by
  obtain ⟨hbusy, hseq, hdone, hok, hcode, hout, htrace⟩ := h
  exact
    { busy_iff_sequenced := by simp [hbusy, hseq]
      busy_not_finished := by simp [hbusy]
      ok_finished := by simp [hok]
      failed_iff_code := ⟨fun _ => hcode, fun _ => ⟨hdone, hok⟩⟩
      outLen_iff_ok := by simp [hout, hok]
      traceLen_only_traced := fun h => absurd htrace h
      busy_command := by simp [hbusy]
      no_code_no_cause := fun h => absurd h hcode }

theorem Succeeded.flagsInv {a : Avce} (h : Succeeded a) : FlagsInv a := by
  obtain ⟨hbusy, hseq, hdone, hok, herr, hout, htrace⟩ := h
  exact
    { busy_iff_sequenced := by simp [hbusy, hseq]
      busy_not_finished := by simp [hbusy]
      ok_finished := fun _ => ⟨hdone, by rw [herr]; rfl⟩
      failed_iff_code := by simp [hok, herr]
      outLen_iff_ok := ⟨fun _ => hok, fun _ => hout⟩
      traceLen_only_traced := fun h => ⟨hok, htrace h⟩
      busy_command := by simp [hbusy]
      no_code_no_cause := fun _ => by simp [herr] }

/-- CODE is 0 unless a command has failed, and without a CODE there is no cause either (R24, R39 (d)). -/
theorem FlagsInv.noError_of_not_done {a : Avce} (h : FlagsInv a) (hdone : a.done = false) : a.errinfo = ⟨0, 0, 0⟩ := by
  have hcode : a.errinfo.code = 0 := by
    by_contra hne
    obtain ⟨hd, -⟩ := h.failed_iff_code.mpr hne
    simp [hdone] at hd
  obtain ⟨hsub, hindex⟩ := h.no_code_no_cause hcode
  calc
    a.errinfo = ⟨a.errinfo.code, a.errinfo.sub, a.errinfo.index⟩ := rfl
    _ = ⟨0, 0, 0⟩ := by rw [hcode, hsub, hindex]

theorem FlagsInv.inProgress {a : Avce} (h : FlagsInv a) (hb : a.busy = true) : InProgress a := by
  obtain ⟨hdone, hok⟩ := h.busy_not_finished hb
  have hnot : ¬a.ok = true := by simp [hok]
  exact ⟨hb, h.busy_iff_sequenced.mp hb, hdone, hok, h.noError_of_not_done hdone,
    not_not.mp (mt h.outLen_iff_ok.mp hnot), not_not.mp fun ht => hnot (h.traceLen_only_traced ht).1,
    h.busy_command hb⟩

/-- Settles O40: BUSY excludes the other two flags, and OK comes with DONE. -/
theorem statusTakesFourValues : Obligations.StatusTakesFourValues := by
  intro a h
  unfold statusWord
  cases hbusy : a.busy with
  | true =>
    obtain ⟨hdone, hok⟩ := h.busy_not_finished hbusy
    rw [hdone, hok]
    exact .inr (.inl rfl)
  | false =>
    cases hok : a.ok with
    | true =>
      rw [(h.ok_finished hok).1]
      exact .inr (.inr (.inr rfl))
    | false =>
      cases a.done with
      | false => exact .inl rfl
      | true => exact .inr (.inr (.inl rfl))

/-! ### What a START and a write leave -/

/-- `u` has the registers of `a` that the invariant of the flags speaks of, SEQ apart. -/
structure SameFlags (a u : Avce) : Prop where
  cmd : u.cmd = a.cmd
  cmdr : u.cmdr = a.cmdr
  busy : u.busy = a.busy
  done : u.done = a.done
  ok : u.ok = a.ok
  errinfo : u.errinfo = a.errinfo
  outLen : u.outLen = a.outLen
  traceLen : u.traceLen = a.traceLen

theorem SameFlags.flagsInv {a u : Avce} (h : SameFlags a u) (hseq : u.seq = a.seq) (hf : FlagsInv a) : FlagsInv u := by
  obtain ⟨hbusy, hnotFinished, hok, hfailed, hout, htrace, hcmd, hcause⟩ := hf
  constructor <;> simpa only [h.cmd, h.cmdr, h.busy, h.done, h.ok, h.errinfo, h.outLen, h.traceLen, hseq]

theorem SameFlags.inProgress {a u : Avce} (h : SameFlags a u) (hseq : u.seq ≠ .idle) (hp : InProgress a) :
    InProgress u where
  busy := h.busy.trans hp.busy
  sequenced := hseq
  done := h.done.trans hp.done
  ok := h.ok.trans hp.ok
  noError := h.errinfo.trans hp.noError
  outLen := h.outLen.trans hp.outLen
  traceLen := h.traceLen.trans hp.traceLen
  command := by
    rw [CmdrDecoded, h.cmd, h.cmdr]
    exact hp.command

/-- No input register is a flag (R56). -/
theorem writeReg_sameFlags (v : Word) (n : RegName) (a : Avce) : SameFlags a (writeReg a v n) := by
  cases n <;> exact ⟨rfl, rfl, rfl, rfl, rfl, rfl, rfl, rfl⟩

theorem writeReg_seq (v : Word) (n : RegName) (a : Avce) : (writeReg a v n).seq = a.seq := by
  cases n <;> rfl

theorem ErrClass.code_ne_zero (cls : ErrClass) : cls.code ≠ 0 := by
  cases cls <;> decide

/-- ERROR ENTRY at the end of a START (R93, R306). -/
theorem failed_raiseError {a : Avce} (hb : a.busy = false) (hs : a.seq = .idle) (cls : ErrClass) (sub : BitVec 4)
    (index : BitVec 8) (v : Word) : Failed (raiseError cls sub index (clearForStart v a)) :=
  ⟨hb, hs, rfl, rfl, cls.code_ne_zero, rfl, rfl⟩

theorem fields_alg_eq_two {i : Instr} (h : i.fields.alg ≠ 1) : i.fields.alg = 2 := by
  cases i with
  | desEnc | desDec | desEncT | desDecT => exact absurd rfl h
  | aesEnc | aesDec | aesEncT | aesDecT => rfl

theorem fields_rsv_eq_zero (i : Instr) : i.fields.rsv = 0 := by
  cases i <;> rfl

/-- CMDR latched from a command's row of the opcode map beside the command's word (R31, R85). -/
theorem cmdrDecoded_of_fields {a : Avce} {i : Instr} (hcmd : a.cmd = encode i)
    (hcmdr : a.cmdr = ⟨i.fields.alg, i.fields.dec, i.fields.trc⟩) : CmdrDecoded a := by
  rw [CmdrDecoded, hcmd, hcmdr, fieldsOf_encode]
  exact ⟨rfl, rfl, rfl, fields_rsv_eq_zero i⟩

theorem inProgress_latchDes {i : Instr} (halg : i.fields.alg = 1) (a : Avce) :
    InProgress (latchDes i.fields.dec i.fields.trc (clearForStart (encode i) a)) :=
  ⟨rfl, nofun, rfl, rfl, rfl, rfl, rfl, cmdrDecoded_of_fields rfl (by rw [halg]; rfl)⟩

theorem inProgress_latchAes {i : Instr} (halg : i.fields.alg ≠ 1) (a : Avce) :
    InProgress (latchAes i.fields.dec i.fields.trc (clearForStart (encode i) a)) :=
  ⟨rfl, nofun, rfl, rfl, rfl, rfl, rfl, cmdrDecoded_of_fields rfl (by rw [fields_alg_eq_two halg]; rfl)⟩

theorem FlagsInv.idle {a : Avce} (h : FlagsInv a) (hb : a.busy = false) : a.seq = .idle := by
  by_contra hs
  have hbusy := h.busy_iff_sequenced.mpr hs
  simp [hb] at hbusy

theorem flagsInv_startOf {a : Avce} (hb : a.busy = false) (i : Instr) (h : FlagsInv a) : FlagsInv (startOf i a) := by
  rcases startOf_cases hb i with ⟨sub, index, he⟩ | ⟨halg, he⟩ | ⟨halg, he⟩ <;> rw [he]
  · exact (failed_raiseError hb (h.idle hb) _ sub index _).flagsInv
  · exact (inProgress_latchDes halg a).flagsInv
  · exact (inProgress_latchAes halg a).flagsInv

theorem flagsInv_startRejected {a : Avce} (hb : a.busy = false) (v : Word) (e : DecodeError) (h : FlagsInv a) :
    FlagsInv (startRejected v e a) := by
  obtain ⟨sub, he⟩ := startRejected_eq v e a
  rw [he]
  exact (failed_raiseError hb (h.idle hb) _ sub 0 v).flagsInv

/-! ### The sequencer -/

/-- The phase that follows in a command (R175, R265). -/
def Seq.next : Seq → Seq
  | .idle => .idle
  | .desPc1 => .desKs 0
  | .desKs r => if h : r.val + 1 < 16 then .desKs ⟨r.val + 1, h⟩ else .desIp
  | .desIp => .desRnd 0
  | .desRnd r => if h : r.val + 1 < 16 then .desRnd ⟨r.val + 1, h⟩ else .desFp
  | .desFp => .idle
  | .aesKx i => if h : i.val + 1 < 44 then .aesKx ⟨i.val + 1, h⟩ else .aesArk0
  | .aesArk0 => .aesRnd 0
  | .aesRnd r => if h : r.val + 1 < 10 then .aesRnd ⟨r.val + 1, h⟩ else .aesOut
  | .aesOut => .idle

theorem engineStep_seq {a : Avce} (hb : a.busy = true) : (engineStep a).seq = a.seq.next := by
  rw [engineStep_busy hb]
  cases hs : a.seq with
  | idle => simp only [sequencedStep, hs, Seq.next]
  | desPc1 | desKs | desIp | desRnd | desFp | aesKx | aesArk0 | aesRnd | aesOut =>
    simp only [sequencedStep, hs]
    rfl

/-- The engine steps that a command has still to make, 35 and 56 at its START (R175, R265). -/
def Seq.stepsLeft : Seq → Nat
  | .idle => 0
  | .desPc1 => 35
  | .desKs r => 34 - r.val
  | .desIp => 18
  | .desRnd r => 17 - r.val
  | .desFp => 1
  | .aesKx i => 56 - i.val
  | .aesArk0 => 12
  | .aesRnd r => 11 - r.val
  | .aesOut => 1

theorem Seq.stepsLeft_le (q : Seq) : q.stepsLeft ≤ 56 := by
  cases q <;> simp only [Seq.stepsLeft] <;> omega

theorem Seq.stepsLeft_eq_zero {q : Seq} : q.stepsLeft = 0 ↔ q = .idle := by
  cases q with
  | idle => exact ⟨fun _ => rfl, fun _ => rfl⟩
  | desPc1 | desIp | desFp | aesArk0 | aesOut => exact ⟨nofun, nofun⟩
  | desKs r | desRnd r | aesKx r | aesRnd r =>
    simp only [Seq.stepsLeft, reduceCtorEq, iff_false]
    omega

/-- Each step of a command leaves one less to make. -/
theorem Seq.stepsLeft_next {q : Seq} (h : q ≠ .idle) : q.next.stepsLeft + 1 = q.stepsLeft := by
  cases q with
  | idle => exact absurd rfl h
  | desPc1 | desIp | desFp | aesArk0 | aesOut => rfl
  | desKs r | desRnd r | aesKx r | aesRnd r =>
    simp only [Seq.next]
    split <;> simp only [Seq.stepsLeft] <;> omega

/-! ### What an engine step leaves -/

/-- Only the last step of a command touches the flags (R176, R266). -/
theorem sequencedStep_sameFlags {a : Avce} (hfp : a.seq ≠ .desFp) (hout : a.seq ≠ .aesOut) :
    SameFlags a (sequencedStep a) := by
  cases hs : a.seq with
  | desFp => exact absurd hs hfp
  | aesOut => exact absurd hs hout
  | idle | desPc1 | desKs | desIp | desRnd | aesKx | aesArk0 | aesRnd =>
    simp only [sequencedStep, hs]
    exact ⟨rfl, rfl, rfl, rfl, rfl, rfl, rfl, rfl⟩

theorem Seq.next_ne_idle {q : Seq} (hidle : q ≠ .idle) (hfp : q ≠ .desFp) (hout : q ≠ .aesOut) : q.next ≠ .idle := by
  cases q with
  | idle => exact absurd rfl hidle
  | desFp => exact absurd rfl hfp
  | aesOut => exact absurd rfl hout
  | desPc1 | desIp | aesArk0 => nofun
  | desKs | desRnd | aesKx | aesRnd =>
    simp only [Seq.next]
    split <;> nofun

theorem InProgress.succeeded_stepDesFp {a : Avce} (h : InProgress a) : Succeeded (stepDesFp a) :=
  ⟨rfl, rfl, rfl, rfl, h.noError, by simp, by simp⟩

theorem InProgress.succeeded_stepAesOut {a : Avce} (h : InProgress a) : Succeeded (stepAesOut a) :=
  ⟨rfl, rfl, rfl, rfl, h.noError, by simp, by simp⟩

/-- A command in progress goes on, or its last step publishes its result. -/
theorem InProgress.continues_or_succeeds {a : Avce} (h : InProgress a) :
    InProgress (engineStep a) ∨ Succeeded (engineStep a) := by
  have hnext := engineStep_seq h.busy
  rw [engineStep_busy h.busy] at hnext ⊢
  by_cases hfp : a.seq = .desFp
  · have he : sequencedStep a = stepDesFp a := by simp only [sequencedStep, hfp]
    exact .inr (he ▸ h.succeeded_stepDesFp)
  by_cases hout : a.seq = .aesOut
  · have he : sequencedStep a = stepAesOut a := by simp only [sequencedStep, hout]
    exact .inr (he ▸ h.succeeded_stepAesOut)
  have hseq : (sequencedStep a).seq ≠ .idle := hnext ▸ Seq.next_ne_idle h.sequenced hfp hout
  exact .inl ((sequencedStep_sameFlags hfp hout).inProgress hseq h)

theorem flagsInv_engineStep {a : Avce} (h : FlagsInv a) : FlagsInv (engineStep a) := by
  cases hb : a.busy with
  | false => rwa [engineStep_idle hb]
  | true => exact (h.inProgress hb).continues_or_succeeds.elim InProgress.flagsInv Succeeded.flagsInv

/-- Settles O34: a START ends with a command in progress or with an error, an engine step keeps the one in progress or
publishes its result, and no input register is a flag. -/
theorem everyStepKeepsTheFlags : Obligations.EveryStepKeepsTheFlags := by
  intro s t h hstep
  refine step_keeps flagsInv_reset (fun a => flagsInv_engineStep) ?start ?reject ?write h hstep
  case start => exact fun i a hb => flagsInv_startOf hb i
  case reject => exact fun v e a hb _ => flagsInv_startRejected hb v e
  case write => exact fun v n a _ _ => (writeReg_sameFlags v n a).flagsInv (writeReg_seq v n a)

end Sys2Proof.Machine
end

-- The proofs of the family 30_encoding.md: what the host sees while BUSY, and the end of a POLL
section
/-! The registers of a command in progress as the host reads them (20_memory.md R58), and POLL (30_encoding.md R96). -/

namespace Sys2Proof.Machine

theorem InProgress.statusWord_eq {a : Avce} (h : InProgress a) : statusWord a = 1 := by
  rw [statusWord, h.busy, h.done, h.ok]
  rfl

/-- With TRACE_LEN = 0 the read gate hides every trace word (R59). -/
theorem gatedTrace_of_traceLen_zero {a : Avce} (h : a.traceLen = 0) (i : Nat) : gatedTrace a i = 0 :=
  gatedTrace_of_le (by simp [h])

/-- Settles O41: by `RegName.holds` each number reads its register, and the registers of a command in progress are
cleared. -/
theorem readsWhileBusyShowNoResult : Obligations.ReadsWhileBusyShowNoResult := by
  intro a hflags hresult hb
  have hp : InProgress a := hflags.inProgress hb
  obtain ⟨-, -, houtBuf, hdout⟩ := hresult.empty_unless_ok hp.ok
  obtain ⟨halg, hdec, htrc, -⟩ := hp.command
  refine ⟨?status, ?errinfo, ?outLen, ?traceLen, fun i => ?dout, fun i => ?outBuf, fun i => ?trace,
    hostRead_ofNat a (r := .cmd) rfl, halg.symm, hdec.symm, htrc.symm, hostRead_ofNat a (r := .textLen) rfl,
    hostRead_ofNat a (r := .keyLen) rfl, fun i => hostRead_ofNat a (r := .textBuf i) rfl,
    fun i => hostRead_ofNat a (r := .keyBuf i) rfl⟩
  case status => exact (hostRead_ofNat a (r := .status) rfl).trans hp.statusWord_eq
  case errinfo => exact (hostRead_ofNat a (r := .errinfo) rfl).trans (congrArg errWord hp.noError)
  case outLen => exact (hostRead_ofNat a (r := .outLen) rfl).trans hp.outLen
  case traceLen => exact (hostRead_ofNat a (r := .traceLen) rfl).trans hp.traceLen
  case dout => exact (hostRead_ofNat a (r := .dout i) rfl).trans (hdout i)
  case outBuf => exact (hostRead_ofNat a (r := .outBuf i) rfl).trans (houtBuf i)
  case trace => exact (hostRead_ofNat a (r := .trace i) rfl).trans (gatedTrace_of_traceLen_zero hp.traceLen i)

/-! ### POLL -/

theorem core_run_one {s t : State} (h : step s = .next t) : core.run 1 s = .next t :=
  core_run_succ 0 s t h

/-- A POLL that reads BUSY is back after one engine step. -/
theorem core_run_poll_busy {s : State} {rest : List Event} (h : s.schedule = .poll :: rest)
    (hb : s.avce.busy = true) :
    ∃ t, t.avce = engineStep s.avce ∧ t.schedule = .poll :: rest ∧ ∀ n, core.run (n + 2) s = core.run n t := by
  have hread := step_of_poll h
  rw [if_pos hb] at hread
  exact ⟨_, rfl, rfl, fun n =>
    (core_run_succ (n + 1) s _ hread).trans (core_run_succ n _ _ (step_of_engine rfl))⟩

/-- A POLL that reads BUSY = 0 is over. -/
theorem core_run_poll_idle {s : State} {rest : List Event} (h : s.schedule = .poll :: rest)
    (hb : s.avce.busy = false) :
    core.run 1 s = .next { avce := s.avce, schedule := rest, rdata := statusWord s.avce } := by
  have hread := step_of_poll h
  rw [hb, hostRead_statusRegNo] at hread
  exact core_run_one hread

theorem FlagsInv.busy_of_stepsLeft {a : Avce} (h : FlagsInv a) {n : Nat} (hn : a.seq.stepsLeft = n + 1) :
    a.busy = true := by
  have hne : a.seq ≠ .idle := fun hidle => by simp [Seq.stepsLeft_eq_zero.mpr hidle] at hn
  exact h.busy_iff_sequenced.mpr hne

theorem FlagsInv.not_busy_of_stepsLeft {a : Avce} (h : FlagsInv a) (hn : a.seq.stepsLeft = 0) : a.busy = false := by
  have hidle : a.seq = .idle := Seq.stepsLeft_eq_zero.mp hn
  exact Bool.eq_false_iff.mpr fun hb => h.busy_iff_sequenced.mp hb hidle

/-- A POLL makes the engine steps that are left, reading STATUS before each of them and once after the last. -/
theorem core_run_poll {n : Nat} {s : State} {rest : List Event} (hflags : FlagsInv s.avce)
    (hs : s.schedule = .poll :: rest) (hn : s.avce.seq.stepsLeft = n) :
    (engineSteps n s.avce).busy = false ∧
      core.run (2 * n + 1) s = .next { avce := engineSteps n s.avce, schedule := rest,
                                       rdata := statusWord (engineSteps n s.avce) } := by
  induction n generalizing s with
  | zero =>
    have hb := hflags.not_busy_of_stepsLeft hn
    exact ⟨hb, core_run_poll_idle hs hb⟩
  | succ n ih =>
    have hb := hflags.busy_of_stepsLeft hn
    have hleft : (engineStep s.avce).seq.stepsLeft = n := by
      have hnext := Seq.stepsLeft_next (hflags.inProgress hb).sequenced
      rw [engineStep_seq hb]
      omega
    obtain ⟨t, havce, hpoll, hrun⟩ := core_run_poll_busy hs hb
    have hflags' : FlagsInv t.avce := havce ▸ flagsInv_engineStep hflags
    rw [show 2 * (n + 1) + 1 = 2 * n + 1 + 2 by omega, hrun, engineSteps_succ, ← havce]
    exact ih hflags' hpoll (havce ▸ hleft)

/-- Settles O46: at most 56 engine steps are left, so POLL takes at most `2 * 56 + 1` steps. -/
theorem pollEndsWithBusyClear : Obligations.PollEndsWithBusyClear := by
  intro s hflags hs
  obtain ⟨hidle, hrun⟩ := core_run_poll hflags hs rfl
  have hleft := s.avce.seq.stepsLeft_le
  refine ⟨_, _, by omega, hrun, rfl, hidle, rfl, ?busyBit⟩
  case busyBit => exact (getLsbD_statusWord_zero _).trans hidle

end Sys2Proof.Machine
end

-- The proofs of the family 40_primitives.md: the hex digits and the hex strings
section
/-! Hex characters and hex strings: what a digit's code means, where `hexdec` puts each digit, and that `hexenc` and
`hexdec` are inverse up to the case of letters (40_primitives.md R100 to R103). -/

namespace Sys2Proof.Machine

/-! ### One character -/

theorem isHex_iff (c : Word) : isHex c = true ↔
    (0x30 ≤ c.toNat ∧ c.toNat ≤ 0x39) ∨ (0x41 ≤ c.toNat ∧ c.toNat ≤ 0x46) ∨ (0x61 ≤ c.toNat ∧ c.toNat ≤ 0x66) := by
  simp [isHex, BitVec.le_def, or_assoc]

theorem toNat_hexVal_of_decimal {c : Word} (hlo : 0x30 ≤ c.toNat) (hhi : c.toNat ≤ 0x39) :
    (hexVal c).toNat = c.toNat - 0x30 := by
  have hbranch : c ≤ 0x39#32 := by bv_omega
  rw [hexVal, if_pos hbranch]
  bv_omega

theorem toNat_hexVal_of_upper {c : Word} (hlo : 0x41 ≤ c.toNat) (hhi : c.toNat ≤ 0x46) :
    (hexVal c).toNat = c.toNat - 0x41 + 10 := by
  have hdecimal : ¬ c ≤ 0x39#32 := by bv_omega
  have hbranch : c ≤ 0x46#32 := by bv_omega
  rw [hexVal, if_neg hdecimal, if_pos hbranch]
  bv_omega

theorem toNat_hexVal_of_lower {c : Word} (hlo : 0x61 ≤ c.toNat) (hhi : c.toNat ≤ 0x66) :
    (hexVal c).toNat = c.toNat - 0x61 + 10 := by
  have hdecimal : ¬ c ≤ 0x39#32 := by bv_omega
  have hupper : ¬ c ≤ 0x46#32 := by bv_omega
  rw [hexVal, if_neg hdecimal, if_neg hupper]
  bv_omega

/-- Settles O3: each range of codes takes its own branch of `hexVal`. -/
theorem hexDigitCodesAndValues : Obligations.HexDigitCodesAndValues :=
  ⟨isHex_iff, fun _ ⟨hlo, hhi⟩ => toNat_hexVal_of_decimal hlo hhi, fun _ ⟨hlo, hhi⟩ => toNat_hexVal_of_upper hlo hhi,
    fun _ ⟨hlo, hhi⟩ => toNat_hexVal_of_lower hlo hhi⟩

theorem toNat_digit (v : BitVec 4) : (digit v).toNat = if v.toNat < 10 then 0x30 + v.toNat else 0x37 + v.toNat := by
  by_cases hv : v < 10#4
  · have hlt : v.toNat < 10 := by bv_omega
    rw [digit, if_pos hv, if_pos hlt]
    bv_omega
  · have hge : ¬ v.toNat < 10 := by bv_omega
    rw [digit, if_neg hv, if_neg hge]
    bv_omega

theorem hexVal_digit (v : BitVec 4) : hexVal (digit v) = v := by
  have hcode := toNat_digit v
  apply BitVec.eq_of_toNat_eq
  by_cases hv : v.toNat < 10
  · rw [if_pos hv] at hcode
    rw [toNat_hexVal_of_decimal (by omega) (by omega)]
    omega
  · rw [if_neg hv] at hcode
    rw [toNat_hexVal_of_upper (by omega) (by omega)]
    omega

theorem toNat_upperCase_of_lower {c : Word} (hlo : 0x61 ≤ c.toNat) (hhi : c.toNat ≤ 0x66) :
    (upperCase c).toNat = c.toNat - 0x20 := by
  have hrange : 0x61#32 ≤ c ∧ c ≤ 0x66#32 := by constructor <;> bv_omega
  rw [upperCase, if_pos hrange]
  bv_omega

theorem upperCase_of_not_lower {c : Word} (h : c.toNat < 0x61) : upperCase c = c := by
  have hrange : ¬ (0x61#32 ≤ c ∧ c ≤ 0x66#32) := by rintro ⟨hlo, -⟩; bv_omega
  rw [upperCase, if_neg hrange]

/-- R103: writing the value of a hex digit gives the digit back in upper case. -/
theorem digit_hexVal {c : Word} (h : isHex c = true) : digit (hexVal c) = upperCase c := by
  have hcode := toNat_digit (hexVal c)
  apply BitVec.eq_of_toNat_eq
  obtain ⟨hlo, hhi⟩ | ⟨hlo, hhi⟩ | ⟨hlo, hhi⟩ := (isHex_iff c).mp h
  case inl =>
    rw [hcode, upperCase_of_not_lower (by omega), toNat_hexVal_of_decimal hlo hhi, if_pos (by omega)]
    omega
  case inr.inl =>
    rw [hcode, upperCase_of_not_lower (by omega), toNat_hexVal_of_upper hlo hhi, if_neg (by omega)]
    omega
  case inr.inr =>
    rw [hcode, toNat_upperCase_of_lower hlo hhi, toNat_hexVal_of_lower hlo hhi, if_neg (by omega)]
    omega

/-! ### A string of characters -/

theorem hexNat_concat (cs : List Word) (c : Word) : hexNat (cs ++ [c]) = 16 * hexNat cs + (hexVal c).toNat := by
  simp [hexNat]

theorem hexNat_lt (cs : List Word) : hexNat cs < 16 ^ cs.length := by
  induction cs using List.reverseRecOn with
  | nil => simp [hexNat]
  | append_singleton cs c ih =>
    have hdigit := (hexVal c).isLt
    rw [hexNat_concat, List.length_append, List.length_singleton, Nat.pow_succ]
    omega

/-- The base-16 digit of `hexNat cs` with `k` digits to its right is the value of the character there. -/
theorem hexNat_digit (cs : List Word) {i k : Nat} (h : i < cs.length) (hk : i + k + 1 = cs.length) :
    hexNat cs / 16 ^ k % 16 = (hexVal cs[i]).toNat := by
  induction cs using List.reverseRecOn generalizing k with
  | nil => simp at h
  | append_singleton cs c ih =>
    rw [List.length_append, List.length_singleton] at hk
    have hdigit := (hexVal c).isLt
    cases k with
    | zero =>
      obtain rfl : i = cs.length := by omega
      rw [hexNat_concat, List.getElem_concat_length rfl]
      omega
    | succ k =>
      have hi : i < cs.length := by omega
      have hshift : (16 * hexNat cs + (hexVal c).toNat) / 16 = hexNat cs := by omega
      rw [hexNat_concat, Nat.pow_succ', ← Nat.div_div_eq_div_mul, hshift, List.getElem_append_left hi]
      exact ih hi (by omega)

theorem toNat_slice {n : Nat} (B : BitVec n) (i len : Nat) :
    (slice B i len).toNat = B.toNat / 2 ^ (n + 1 - i - len) % 2 ^ len := by
  rw [slice, BitVec.extractLsb'_toNat, Nat.shiftRight_eq_div_pow]

theorem toNat_hexDec {n : Nat} {cs : List Word} (hn : n = 4 * cs.length) : (hexDec n cs).toNat = hexNat cs := by
  subst hn
  have hlt := hexNat_lt cs
  rw [show 16 = 2 ^ 4 from rfl, ← Nat.pow_mul] at hlt
  rw [hexDec, BitVec.toNat_ofNat, Nat.mod_eq_of_lt hlt]

/-- R102, for any name `n` of the length `4m`. -/
theorem slice_hexDec {n : Nat} {cs : List Word} (hn : n = 4 * cs.length) {i : Nat} (h : i < cs.length) :
    slice (hexDec n cs) (4 * i + 1) 4 = hexVal cs[i] := by
  have hpos : n + 1 - (4 * i + 1) - 4 = 4 * (cs.length - 1 - i) := by omega
  apply BitVec.eq_of_toNat_eq
  rw [toNat_slice, toNat_hexDec hn, hpos, Nat.pow_mul]
  exact hexNat_digit cs h (by omega)

/-- Settles O4: four bits are one base-16 digit, so `slice_hexDec` is `hexNat_digit` read in bits. -/
theorem hexDecPlacesEveryDigit : Obligations.HexDecPlacesEveryDigit :=
  ⟨fun _ _ h => slice_hexDec rfl h, by decide, by decide⟩

/-! ### `hexenc` and `hexdec` -/

theorem length_hexEnc {n m : Nat} (hn : n = 4 * m) (B : BitVec n) : (hexEnc B).length = m := by
  simp [hexEnc, hn]

theorem getElem_hexEnc {n : Nat} (B : BitVec n) {i : Nat} (h : i < (hexEnc B).length) :
    (hexEnc B)[i] = digit (slice B (4 * i + 1) 4) := by
  simp [hexEnc, hexEncAt]

/-- Two bit strings of `4m` bits that agree on each of their `m` digits are equal. -/
theorem eq_of_digits_eq {n m : Nat} (hn : n = 4 * m) {B C : BitVec n}
    (h : ∀ i, i < m → slice B (4 * i + 1) 4 = slice C (4 * i + 1) 4) : B = C := by
  apply BitVec.eq_of_getMsbD_eq
  intro j hj
  have hpos : 4 * (j / 4) + 1 - 1 + j % 4 = j := by omega
  have hbit (D : BitVec n) : (slice D (4 * (j / 4) + 1) 4).getMsbD (j % 4) = D.getMsbD j := by
    rw [getMsbD_slice _ _ _ _ (by omega) (by omega) (by omega), hpos]
  rw [← hbit B, ← hbit C, h (j / 4) (by omega)]

theorem hexDec_hexEnc {n m : Nat} (hn : n = 4 * m) (B : BitVec n) : hexDec n (hexEnc B) = B := by
  have hlen := length_hexEnc hn B
  refine eq_of_digits_eq hn fun i hi => ?_
  rw [slice_hexDec (by rw [hlen, hn]) (by rw [hlen]; exact hi), getElem_hexEnc, hexVal_digit]

theorem hexEnc_hexDec {n : Nat} {cs : List Word} (hn : n = 4 * cs.length) (hhex : ∀ c ∈ cs, isHex c = true) :
    hexEnc (hexDec n cs) = cs.map upperCase := by
  apply List.ext_getElem
  case hl => rw [length_hexEnc hn, List.length_map]
  case h =>
    intro i _ hi
    have hlt : i < cs.length := by rwa [List.length_map] at hi
    rw [getElem_hexEnc, slice_hexDec hn hlt, digit_hexVal (hhex _ (List.getElem_mem hlt)), List.getElem_map]

/-- Settles O5: digit by digit, `hexVal_digit` one way and `digit_hexVal` the other. -/
theorem hexEncInvertsHexDec : Obligations.HexEncInvertsHexDec :=
  ⟨hexDec_hexEnc (m := 16) rfl, hexDec_hexEnc (m := 32) rfl,
    fun _ hlen hhex => hexEnc_hexDec (by rw [hlen]) hhex, fun _ hlen hhex => hexEnc_hexDec (by rw [hlen]) hhex⟩

end Sys2Proof.Machine
end

-- The proofs of the family 40_primitives.md: rotations and the halves of a DES key
section
/-! Rotations of a bit string add up modulo its length (40_primitives.md R109), so the sixteen rotations of the DES key
schedule bring the halves back (41_des_key_schedule.md R123, R124). -/

namespace Sys2Proof.Machine

/-- R109: position `j` of `rotl(B, k)` is position `k + j` of `B`, around the end. -/
theorem getMsbD_rotl {n : Nat} (B : BitVec n) (k : Nat) {j : Nat} (hj : j < n) :
    (rotl B k).getMsbD j = B.getMsbD ((k + j) % n) := by
  simp [rotl, BitVec.getMsbD_rotateLeft, hj]

theorem rotl_zero {n : Nat} (B : BitVec n) : rotl B 0 = B := by
  apply BitVec.eq_of_getMsbD_eq
  intro j hj
  rw [getMsbD_rotl B 0 hj, Nat.zero_add, Nat.mod_eq_of_lt hj]

theorem rotl_rotl {n : Nat} (B : BitVec n) (j k : Nat) : rotl (rotl B j) k = rotl B (j + k) := by
  apply BitVec.eq_of_getMsbD_eq
  intro p hp
  have hwrap : (k + p) % n < n := Nat.mod_lt _ (by omega)
  rw [getMsbD_rotl _ k hp, getMsbD_rotl B j hwrap, getMsbD_rotl B (j + k) hp, Nat.add_mod_mod, Nat.add_assoc]

theorem rotl_length {n : Nat} (B : BitVec n) : rotl B n = B := by
  apply BitVec.eq_of_getMsbD_eq
  intro j hj
  rw [getMsbD_rotl B n hj, Nat.add_mod_left, Nat.mod_eq_of_lt hj]

/-- The positions that rounds 1 to `i` rotate together (R123). -/
def totalShift (i : Nat) : Nat := ((List.range i).map fun r => shiftAmount (r + 1)).sum

theorem totalShift_succ (i : Nat) : totalShift (i + 1) = totalShift i + shiftAmount (i + 1) := by
  simp [totalShift, List.range_succ]

theorem totalShift_sixteen : totalShift 16 = 28 := by decide

/-- R124: the halves after round `i` are the first ones rotated by all the amounts so far. -/
theorem desHalves_eq_rotl (key : BitVec 64) (i : Nat) :
    desHalves key i = (rotl (desHalves key 0).1 (totalShift i), rotl (desHalves key 0).2 (totalShift i)) := by
  induction i with
  | zero => simp only [show totalShift 0 = 0 from rfl, rotl_zero]
  | succ i ih =>
    have hround : desHalves key (i + 1) = rotateHalves (i + 1) (desHalves key i) := rfl
    rw [hround, ih, rotateHalves, rotl_rotl, rotl_rotl, totalShift_succ]

/-- Settles O54: after sixteen rounds each half has been rotated by 28, its own length. -/
theorem keyRotationsCloseUp : Obligations.KeyRotationsCloseUp := by
  refine ⟨fun i _ _ => rfl, totalShift_sixteen, fun key => ?_⟩
  rw [desHalves_eq_rotl key 16, totalShift_sixteen, rotl_length, rotl_length]

end Sys2Proof.Machine
end

-- The proofs of the family 41_des_key_schedule.md: the parity bits of a key
section
/-! What PC-1 does not select influences nothing (41_des_key_schedule.md R121, R129): the key schedule and both block
functions see a key through `perm(PC1, KEY)` only. -/

namespace Sys2Proof.Machine

/-! ### Two bit strings that agree where a table selects -/

/-- R12: an output of `perm` depends on the selected positions alone. -/
theorem perm_congr {n m : Nat} {T : List Nat} {B B' : BitVec n}
    (h : ∀ t ∈ T, B.getMsbD (t - 1) = B'.getMsbD (t - 1)) : perm m T B = perm m T B' := by
  rw [perm, perm, List.map_congr_left h]

/-- R121: PC-1 selects key positions 1 to 64 that are no multiple of 8 (here counted from 0). -/
theorem pc1Table_avoids_parity : ∀ t ∈ pc1Table, t - 1 < 64 ∧ (t - 1) % 8 ≠ 7 := by decide

theorem perm_pc1Table_of_sameButParity {k k' : BitVec 64} (h : SameButParity k k') :
    perm 56 pc1Table k = perm 56 pc1Table k' := by
  refine perm_congr fun t ht => ?_
  obtain ⟨hlt, hparity⟩ := pc1Table_avoids_parity t ht
  exact h (t - 1) hlt hparity

/-! ### From PC-1 to the subkeys and the block functions -/

theorem desHalves_congr {k k' : BitVec 64} (h : perm 56 pc1Table k = perm 56 pc1Table k') (i : Nat) :
    desHalves k i = desHalves k' i := by
  induction i with
  | zero => rw [desHalves, desHalves, h]
  | succ i ih => rw [desHalves, desHalves, ih]

theorem desSubkey_of_sameButParity {k k' : BitVec 64} (h : SameButParity k k') (i : Nat) :
    desSubkey k i = desSubkey k' i := by
  rw [desSubkey, desSubkey, desHalves_congr (perm_pc1Table_of_sameButParity h)]

/-- R156: the data rounds read a key through its subkeys only. -/
theorem desPair_congr_key {k k' : BitVec 64} (h : ∀ i, desSubkey k i = desSubkey k' i) (dec : Bool)
    (text : BitVec 64) (n : Nat) : desPair dec text k n = desPair dec text k' n := by
  induction n with
  | zero => rfl
  | succ n ih => rw [desPair, desPair, ih, h]

theorem desBlock_congr_key {k k' : BitVec 64} (h : ∀ i, desSubkey k i = desSubkey k' i) (dec : Bool)
    (text : BitVec 64) : desBlock dec text k = desBlock dec text k' := by
  rw [desBlock, desBlock, desPair_congr_key h]

/-! ### The all-zero key -/

theorem perm_zero {n m : Nat} {T : List Nat} (hT : T.length = m) : perm m T (0 : BitVec n) = 0 := by
  apply BitVec.eq_of_getMsbD_eq
  intro i hi
  rw [getMsbD_perm T _ hT i hi, BitVec.ofNat_eq_ofNat, BitVec.ofNat_eq_ofNat, BitVec.getMsbD_zero, BitVec.getMsbD_zero]

theorem rotl_zero_bits {n : Nat} (k : Nat) : rotl (0 : BitVec n) k = 0 := by
  apply BitVec.eq_of_getMsbD_eq
  intro j hj
  rw [getMsbD_rotl _ k hj, BitVec.ofNat_eq_ofNat, BitVec.getMsbD_zero, BitVec.getMsbD_zero]

/-- R122: PC-1 of the all-zero key leaves two all-zero halves, and rotations keep them. -/
theorem desHalves_zero_key (i : Nat) : desHalves 0 i = (0, 0) := by
  have hpc1 : perm 56 pc1Table (0 : BitVec 64) = 0 := perm_zero rfl
  have hstart : desHalves 0 0 = (0, 0) := by
    rw [desHalves, hpc1]
    rfl
  rw [desHalves_eq_rotl, hstart, rotl_zero_bits]

theorem desSubkey_zero_key (i : Nat) : desSubkey 0 i = 0 := by
  have hjoined : (0 : BitVec 28) ++ (0 : BitVec 28) = (0 : BitVec 56) := rfl
  rw [desSubkey, desHalves_zero_key, subkeyOf, hjoined]
  exact perm_zero rfl

/-- Settles O55: PC-1 selects no parity position, the subkeys are a function of its output, and the results of the
subkeys; the all-zero key stays 0 through every permutation and rotation. -/
theorem keyParityIsIgnored : Obligations.KeyParityIsIgnored := by
  refine ⟨fun k k' h => ?_, desSubkey_zero_key⟩
  have hsub := desSubkey_of_sameButParity h
  exact ⟨hsub, desBlock_congr_key hsub false, desBlock_congr_key hsub true⟩

end Sys2Proof.Machine
end

-- The proofs of the family 41_des_key_schedule.md: the engine steps of the key schedule and of IP
section
/-! The engine steps DES_PC1, (DES_KS, i) and DES_IP: the registers and trace words they write, and their frame
(41_des_key_schedule.md R130, R131; 42_des_datapath.md R164; 43_des_commands.md R177, R178). -/

namespace Sys2Proof.Machine

/-! ### The step that SEQ selects -/

theorem engineStep_desPc1 {a : Avce} (hb : a.busy = true) (hs : a.seq = .desPc1) : engineStep a = stepDesPc1 a := by
  rw [engineStep_busy hb, sequencedStep, hs]

theorem engineStep_desKs {r : Fin 16} {a : Avce} (hb : a.busy = true) (hs : a.seq = .desKs r) :
    engineStep a = stepDesKs r a := by
  rw [engineStep_busy hb, sequencedStep, hs]

theorem engineStep_desIp {a : Avce} (hb : a.busy = true) (hs : a.seq = .desIp) : engineStep a = stepDesIp a := by
  rw [engineStep_busy hb, sequencedStep, hs]

/-! ### The trace words of a step -/

theorem traceIf_direct {a : Avce} (h : a.cmdr.trc = false) (off : Nat) (ws : List Word) :
    traceIf a off ws = a.trace := by
  simp [traceIf, h]

theorem traceIf_traced {a : Avce} (h : a.cmdr.trc = true) (off : Nat) (ws : List Word) :
    traceIf a off ws = a.trace.writeWords off ws := by
  simp [traceIf, h]

/-- R29, R83: a step whose trace memory is `traceIf` writes just those words, as long as they lie below 1024. -/
theorem traceWrites_of_traceIf {a u : Avce} {off : Nat} {ws : List Word} (hu : u.trace = traceIf a off ws)
    (hfit : off + ws.length ≤ Config.traceCap) : TraceWrites a u off ws := by
  refine ⟨fun hdirect => ?_, fun htraced j => ?_⟩
  · rw [hu, traceIf_direct hdirect]
  · rw [hu, traceIf_traced htraced, Memory.readWord_writeWords _ _ _ _ hfit]

/-! ### DES_PC1 and DES_IP -/

/-- Settles O25: both steps split a permuted operand in two halves, and each writes one run of trace words. -/
theorem desKeyAndTextPermutationSteps : Obligations.DesKeyAndTextPermutationSteps := by
  refine ⟨fun a hb hs => ?pc1, fun a hb hs => ?ip⟩
  case pc1 =>
    rw [engineStep_desPc1 hb hs]
    have hfit : 0 + (desHeader a.cmd a.dkey a.dtext (stepDesPc1 a).c (stepDesPc1 a).d).length ≤ Config.traceCap := by
      simp [desHeader, Config.traceCap]
    exact ⟨keyHalves_append _, stepDesPc1_seq a, traceWrites_of_traceIf (stepDesPc1_trace a) hfit, rfl⟩
  case ip =>
    rw [engineStep_desIp hb hs]
    have hfit : 7 + [(stepDesIp a).l, (stepDesIp a).r].length ≤ Config.traceCap := by simp [Config.traceCap]
    exact ⟨dataHalves_append _, stepDesIp_seq a, traceWrites_of_traceIf (stepDesIp_trace a) hfit, rfl⟩

/-! ### (DES_KS, i) -/

/-- R131: of the subkey registers step (DES_KS, r+1) writes number `r+1` alone. -/
theorem getElem_stepDesKs_k (r : Fin 16) (a : Avce) (j : Fin 16) :
    (stepDesKs r a).k[j] = if j = r then subkeyOf (stepDesKs r a).c (stepDesKs r a).d else a.k[j] := by
  simp only [stepDesKs_k, stepDesKs_c, stepDesKs_d, Fin.getElem_fin, Vector.getElem_set, Fin.ext_iff, eq_comm]

theorem stepDesKs_k_same (r : Fin 16) (a : Avce) :
    (stepDesKs r a).k[r] = subkeyOf (stepDesKs r a).c (stepDesKs r a).d := by
  rw [getElem_stepDesKs_k, if_pos rfl]

theorem length_desKeyRecord (i : Nat) (cPre dPre c d : BitVec 28) (k : BitVec 48) :
    (desKeyRecord i cPre dPre c d k).length = 8 := rfl

/-- R178: record `r+1` as step (DES_KS, r+1) writes it lies at `16 + 8 * r`. -/
theorem stepDesKs_traceWrites (r : Fin 16) (a : Avce) :
    TraceWrites a (stepDesKs r a) (16 + 8 * r.val)
      (desKeyRecord (r.val + 1) a.c a.d (stepDesKs r a).c (stepDesKs r a).d (stepDesKs r a).k[r]) := by
  rw [stepDesKs_k_same]
  refine traceWrites_of_traceIf (stepDesKs_trace r a) ?fit
  rw [length_desKeyRecord, Config.traceCap]
  omega

/-- Settles O26: the new halves and the successor are the step's own fields; `getElem_stepDesKs_k` gives the subkeys and
`stepDesKs_traceWrites` the record. -/
theorem desKeyScheduleStep : Obligations.DesKeyScheduleStep := by
  intro r a hb hs
  rw [engineStep_desKs hb hs]
  exact ⟨stepDesKs_c r a, stepDesKs_d r a, getElem_stepDesKs_k r a, stepDesKs_seq r a, stepDesKs_traceWrites r a, rfl⟩

end Sys2Proof.Machine
end

-- The proofs of the family 42_des_datapath.md: IP and FP, and decryption against encryption
section
/-! FP undoes IP (42_des_datapath.md R160), and the sixteen rounds with the subkeys in reverse order undo themselves
(R163): so DES decryption and encryption undo each other. -/

namespace Sys2Proof.Machine

/-! ### Two tables that undo each other -/

/-- R12: `perm(T, perm(U, B)) = B` when, for every position, entry `T[i]` names the position to which `U` has taken
position `i`. -/
theorem perm_perm_cancel {n m : Nat} (T U : List Nat) (hT : T.length = n) (hU : U.length = m)
    (hTU : ∀ i < n, T.getD i 0 - 1 < m ∧ U.getD (T.getD i 0 - 1) 0 - 1 = i) (B : BitVec n) :
    perm n T (perm m U B) = B := by
  apply BitVec.eq_of_getMsbD_eq
  intro i hi
  obtain ⟨hlt, hback⟩ := hTU i hi
  rw [getMsbD_perm T _ hT i hi, getMsbD_perm U _ hU _ hlt, hback]

theorem ipTable_at_fpTable : ∀ i < 64, fpTable.getD i 0 - 1 < 64 ∧ ipTable.getD (fpTable.getD i 0 - 1) 0 - 1 = i := by
  decide

theorem fpTable_at_ipTable : ∀ i < 64, ipTable.getD i 0 - 1 < 64 ∧ fpTable.getD (ipTable.getD i 0 - 1) 0 - 1 = i := by
  decide

theorem perm_fpTable_ipTable (B : BitVec 64) : perm 64 fpTable (perm 64 ipTable B) = B :=
  perm_perm_cancel fpTable ipTable rfl rfl ipTable_at_fpTable B

theorem perm_ipTable_fpTable (B : BitVec 64) : perm 64 ipTable (perm 64 fpTable B) = B :=
  perm_perm_cancel ipTable fpTable rfl rfl fpTable_at_ipTable B

/-- Settles O52: each table, read at the other's entries, gives back the position. -/
theorem finalPermutationInvertsInitial : Obligations.FinalPermutationInvertsInitial :=
  ⟨perm_fpTable_ipTable, perm_ipTable_fpTable⟩

/-! ### One round, its swap apart -/

/-- R156: what a round does before it swaps: `L` becomes `LXF`, and `R` stays. -/
def desMix (K : BitVec 48) (LR : BitVec 32 × BitVec 32) : BitVec 32 × BitVec 32 := (LR.1 ^^^ desF LR.2 K, LR.2)

theorem desMix_desMix (K : BitVec 48) (LR : BitVec 32 × BitVec 32) : desMix K (desMix K LR) = LR := by
  simp [desMix]

/-- R157: rounds 1 to 15 swap. -/
theorem desPair_succ_of_lt (dec : Bool) (T key : BitVec 64) {n : Nat} (hn : n + 1 < 16) :
    desPair dec T key (n + 1) = (desMix (desSubkey key (kidx dec (n + 1))) (desPair dec T key n)).swap := by
  simp only [desPair, desRound, desPairAfter, desMix, if_pos hn, Prod.swap_prod_mk]

/-- R158: round 16 does not. -/
theorem desPair_sixteen (dec : Bool) (T key : BitVec 64) :
    desPair dec T key 16 = desMix (desSubkey key (kidx dec 16)) (desPair dec T key 15) := rfl

/-! ### The rounds in reverse order -/

/-- R128: the other direction uses the subkeys in reverse order. -/
theorem kidx_not (dec : Bool) {n m : Nat} (h : n + m = 17) : kidx (!dec) n = kidx dec m := by
  cases dec with
  | false => simp only [kidx, Bool.not_false, if_true, Bool.false_eq_true, if_false]; omega
  | true => simp only [kidx, Bool.not_true, if_true, Bool.false_eq_true, if_false]; omega

section
variable {dec : Bool} {T U key : BitVec 64}

/-- From the last pair of the one direction, `n` rounds of the other lead to the pair of round `m + 1` before its swap,
`n + m = 15`: each undoes the round it meets, and its own swap undoes the one before. -/
theorem desPair_not_of_last (h : desPair (!dec) U key 0 = desPair dec T key 16) {n m : Nat} (hnm : n + m = 15) :
    desPair (!dec) U key n = desMix (desSubkey key (kidx dec (m + 1))) (desPair dec T key m) := by
  induction n generalizing m with
  | zero =>
    obtain rfl : m = 15 := by omega
    rw [h, desPair_sixteen]
  | succ n ih =>
    have hkey : kidx (!dec) (n + 1) = kidx dec (m + 1 + 1) := kidx_not dec (by omega)
    rw [desPair_succ_of_lt _ _ _ (by omega), hkey, ih (show n + (m + 1) = 15 by omega), desMix_desMix,
      desPair_succ_of_lt _ _ _ (by omega), Prod.swap_swap]

/-- The last round of the one direction undoes the first of the other, and swaps nothing. -/
theorem desPair_not_last (h : desPair (!dec) U key 0 = desPair dec T key 16) :
    desPair (!dec) U key 16 = desPair dec T key 0 := by
  have hkey : kidx (!dec) 16 = kidx dec (0 + 1) := kidx_not dec rfl
  rw [desPair_sixteen, hkey, desPair_not_of_last h (show 15 + 0 = 15 from rfl), desMix_desMix]

end

/-! ### The block functions -/

theorem dataHalves_of_append (LR : BitVec 32 × BitVec 32) : dataHalves (LR.1 ++ LR.2) = LR :=
  Prod.ext BitVec.extractLsb'_append_eq_left BitVec.extractLsb'_append_eq_right

/-- R159, R160: IP takes the result of one direction back to that direction's last pair. -/
theorem desPair_zero_desBlock (dec dec' : Bool) (T key key' : BitVec 64) :
    desPair dec' (desBlock dec T key) key' 0 = desPair dec T key 16 := by
  rw [desPair, desBlock, finalPerm, perm_ipTable_fpTable, dataHalves_of_append]

theorem desBlock_not_desBlock (dec : Bool) (T key : BitVec 64) : desBlock (!dec) (desBlock dec T key) key = T := by
  rw [desBlock, desPair_not_last (desPair_zero_desBlock dec (!dec) T key key), desPair, finalPerm, dataHalves_append,
    perm_fpTable_ipTable]

/-- Settles O53: both ways are `desBlock_not_desBlock`. -/
theorem desDecryptionInvertsEncryption : Obligations.DesDecryptionInvertsEncryption :=
  ⟨desBlock_not_desBlock false, desBlock_not_desBlock true⟩

end Sys2Proof.Machine
end

-- The proofs of the family 42_des_datapath.md: the engine steps of the rounds and of FP
section
/-! The engine steps (DES_RND, n) and DES_FP: the pair, the subkey by direction, the published result, the trace words
and the frame (42_des_datapath.md R165, R166; 43_des_commands.md R176, R179). -/

namespace Sys2Proof.Machine

/-! ### The step that SEQ selects -/

theorem engineStep_desRnd {r : Fin 16} {a : Avce} (hb : a.busy = true) (hs : a.seq = .desRnd r) :
    engineStep a = stepDesRnd r a := by
  rw [engineStep_busy hb, sequencedStep, hs]

theorem engineStep_desFp {a : Avce} (hb : a.busy = true) (hs : a.seq = .desFp) : engineStep a = stepDesFp a := by
  rw [engineStep_busy hb, sequencedStep, hs]

/-! ### (DES_RND, n) -/

/-- R128: round `r+1` reads K[16-r] to decrypt and K[r+1] to encrypt; K[i] is element `i-1`. -/
theorem roundSubkey_eq_ite (r : Fin 16) (a : Avce) :
    roundSubkey r a = if a.cmdr.dec = true then a.k[15 - r.val]'(by omega) else a.k[r.val] := by
  cases hdec : a.cmdr.dec with
  | false => simp [roundSubkey, hdec]
  | true =>
    simp [roundSubkey, hdec]

theorem kidx_succ (dec : Bool) (r : Nat) : kidx dec (r + 1) = if dec = true then 16 - r else r + 1 := by
  rw [kidx]
  congr 1
  omega

theorem flagWord_swappedFlag (n : Nat) : flagWord (swappedFlag n) = if n < 16 then 1 else 0 := by
  simp [flagWord, swappedFlag]

theorem length_desRoundRecord (n kn : Nat) (L R : BitVec 32) (k : BitVec 48) :
    (desRoundRecord n kn L R k).length = 16 := rfl

/-- R157, R158: the pair that step (DES_RND, r+1) leaves, swapped but in round 16. -/
theorem stepDesRnd_newPair (r : Fin 16) (a : Avce) :
    ((stepDesRnd r a).l, (stepDesRnd r a).r) =
      desPairAfter (r.val + 1) a.r (a.l ^^^ desF a.r (roundSubkey r a)) := rfl

/-- R179: record `r+1` as step (DES_RND, r+1) writes it lies at `144 + 16 * r`. -/
theorem stepDesRnd_traceWrites (r : Fin 16) (a : Avce) :
    TraceWrites a (stepDesRnd r a) (144 + 16 * r.val)
      (desRoundRecord (r.val + 1) (kidx a.cmdr.dec (r.val + 1)) a.l a.r (roundSubkey r a)) := by
  refine traceWrites_of_traceIf (stepDesRnd_trace r a) ?fit
  rw [length_desRoundRecord, Config.traceCap]
  omega

/-- Settles O27: the subkey is `roundSubkey_eq_ite`, the pair is `stepDesRnd_newPair`, and the record of
`stepDesRnd_traceWrites` is the listed one word by word. -/
theorem desRoundStep : Obligations.DesRoundStep := by
  intro r a k ER X SOUT POUT LXF hb hs hk hER hX hSOUT hPOUT hLXF
  rw [← roundSubkey_eq_ite] at hk
  subst hLXF hPOUT hSOUT hX hER hk
  rw [engineStep_desRnd hb hs, ← kidx_succ, ← flagWord_swappedFlag]
  exact ⟨stepDesRnd_newPair r a, stepDesRnd_seq r a, stepDesRnd_traceWrites r a, rfl⟩

/-! ### DES_FP -/

/-- R166: DES_FP writes TRACE[9..12]. -/
theorem stepDesFp_traceWrites (a : Avce) :
    TraceWrites a (stepDesFp a) 9 [a.l, a.r, hiWord (finalPerm a.l a.r), loWord (finalPerm a.l a.r)] := by
  refine traceWrites_of_traceIf (stepDesFp_trace a) ?fit
  simp [Config.traceCap]

/-- Settles O28: the digits are `getElem_putDigits`, and every other field is the step's own. -/
theorem desFinalStepPublishes : Obligations.DesFinalStepPublishes := by
  intro a OUT hb hs hOUT
  subst hOUT
  rw [engineStep_desFp hb hs]
  exact ⟨stepDesFp_traceWrites a, getElem_putDigits 16 (finalPerm a.l a.r) a.outBuf, rfl⟩

end Sys2Proof.Machine
end

-- The proofs of the family 42_des_datapath.md: the worked examples of the source
section
/-! The source's DES and AES vectors and its two products in GF(2^8) (42_des_datapath.md R161, R162; 45_aes_cipher.md
R230; 46_aes_inverse.md R247; 40_primitives.md R107). -/

namespace Sys2Proof.Machine

theorem desE_sourceVector : desE 0x0123456789ABCDEF 0x133457799BBCDFF1 = 0x85E813540F0AB405 := by
  decide +kernel

/-- The vector of R162 is that of R161 read backwards. -/
theorem desD_sourceVector : desD 0x85E813540F0AB405 0x133457799BBCDFF1 = 0x0123456789ABCDEF := by
  rw [← desE_sourceVector]
  exact desBlock_not_desBlock false _ _

theorem aesE_sourceVector :
    aesE (bytesOf 0x00112233445566778899aabbccddeeff) (bytesOf 0x000102030405060708090a0b0c0d0e0f) =
      bytesOf 0x69c4e0d86a7b0430d8cdb78070b4c55a := by
  decide +kernel

theorem aesD_sourceVector :
    aesD (bytesOf 0x69c4e0d86a7b0430d8cdb78070b4c55a) (bytesOf 0x000102030405060708090a0b0c0d0e0f) =
      bytesOf 0x00112233445566778899aabbccddeeff := by
  decide +kernel

theorem gmul_sourceProducts : gmul 0x57 0x02 = 0xAE ∧ gmul 0x57 0x13 = 0xFE := by decide

/-- Settles O51: one vector after the other. -/
theorem sourceVectorsHold : Obligations.SourceVectorsHold :=
  ⟨desE_sourceVector, desD_sourceVector, aesE_sourceVector, aesD_sourceVector, gmul_sourceProducts⟩

end Sys2Proof.Machine
end

-- The proofs of the family 43_des_commands.md: a command from its START to its end
section
/-! A run of engine steps after a START: what it keeps, when it ends, and that it ends with a result (43_des_commands.md
R175, R176; 47_aes_commands.md R265, R266; 60_exceptions.md R307). -/

namespace Sys2Proof.Machine

/-! ### What a run of engine steps keeps -/

/-- The induction over a run, once for every property of the registers that an engine step keeps. -/
theorem engineSteps_keeps {P : Avce → Prop} (hstep : ∀ a, P a → P (engineStep a)) (n : Nat) {a : Avce} (h : P a) :
    P (engineSteps n a) := by
  induction n generalizing a with
  | zero => exact h
  | succ n ih => exact ih (hstep a h)

theorem engineSteps_succ_last (n : Nat) (a : Avce) : engineSteps (n + 1) a = engineStep (engineSteps n a) :=
  engineSteps_add n 1 a

/-- `u` has the command, the input registers and the latched operands of `a`: what no engine step touches. -/
structure SameInputs (a u : Avce) : Prop where
  cmd : u.cmd = a.cmd
  cmdr : u.cmdr = a.cmdr
  lengths : u.textLen = a.textLen ∧ u.keyLen = a.keyLen
  buffers : u.textBuf = a.textBuf ∧ u.keyBuf = a.keyBuf
  desOperands : u.dtext = a.dtext ∧ u.dkey = a.dkey
  aesOperands : u.atext = a.atext ∧ u.akey = a.akey

theorem engineStep_sameInputs (a : Avce) : SameInputs a (engineStep a) := by
  obtain ⟨hcmd, htextLen, hkeyLen, htextBuf, hkeyBuf, hcmdr, hdkey, hdtext, hakey, hatext, -⟩ :=
    engineStep_keeps_inputs a
  exact ⟨hcmd, hcmdr, ⟨htextLen, hkeyLen⟩, ⟨htextBuf, hkeyBuf⟩, ⟨hdtext, hdkey⟩, ⟨hatext, hakey⟩⟩

theorem SameInputs.trans {a u v : Avce} (h : SameInputs a u) (h' : SameInputs u v) : SameInputs a v where
  cmd := h'.cmd.trans h.cmd
  cmdr := h'.cmdr.trans h.cmdr
  lengths := ⟨h'.lengths.1.trans h.lengths.1, h'.lengths.2.trans h.lengths.2⟩
  buffers := ⟨h'.buffers.1.trans h.buffers.1, h'.buffers.2.trans h.buffers.2⟩
  desOperands := ⟨h'.desOperands.1.trans h.desOperands.1, h'.desOperands.2.trans h.desOperands.2⟩
  aesOperands := ⟨h'.aesOperands.1.trans h.aesOperands.1, h'.aesOperands.2.trans h.aesOperands.2⟩

theorem engineSteps_sameInputs (n : Nat) (a : Avce) : SameInputs a (engineSteps n a) :=
  engineSteps_keeps (P := SameInputs a) (fun u h => h.trans (engineStep_sameInputs u)) n
    ⟨rfl, rfl, ⟨rfl, rfl⟩, ⟨rfl, rfl⟩, ⟨rfl, rfl⟩, ⟨rfl, rfl⟩⟩

/-- The three invariants that together say what a command in progress or a finished one holds (R27, R28, R32 to R35,
R39). -/
structure CommandInv (a : Avce) : Prop where
  flags : FlagsInv a
  engine : EngineInv a
  result : ResultInv a

theorem CommandInv.engineStep {a : Avce} (h : CommandInv a) : CommandInv (engineStep a) :=
  ⟨flagsInv_engineStep h.flags, engineInv_engineStep h.engine, resultInv_engineStep h.flags h.engine.phase h.result⟩

theorem CommandInv.engineSteps {a : Avce} (h : CommandInv a) (n : Nat) : CommandInv (engineSteps n a) :=
  engineSteps_keeps (P := CommandInv) (fun _ => CommandInv.engineStep) n h

/-- A direct command writes no trace word (R83). -/
theorem engineSteps_trace_direct (n : Nat) {a : Avce} (h : a.cmdr.trc = false) :
    (engineSteps n a).trace = a.trace := by
  refine (engineSteps_keeps (P := fun u => u.cmdr.trc = false ∧ u.trace = a.trace) ?step n ⟨h, rfl⟩).2
  case step =>
    rintro u ⟨htrc, htrace⟩
    refine ⟨(engineStep_sameInputs u).cmdr ▸ htrc, ?_⟩
    rcases engineStep_trace_cases u with hu | ⟨off, ws, hu⟩
    · exact hu.trans htrace
    · rw [hu, traceIf_direct htrc, htrace]

/-! ### When a command ends -/

theorem stepsLeft_engineStep {a : Avce} (h : FlagsInv a) : (engineStep a).seq.stepsLeft = a.seq.stepsLeft - 1 := by
  cases hb : a.busy with
  | false => rw [engineStep_idle hb, h.idle hb]; rfl
  | true =>
    have hnext := Seq.stepsLeft_next (h.inProgress hb).sequenced
    rw [engineStep_seq hb]
    omega

theorem stepsLeft_engineSteps {a : Avce} (h : FlagsInv a) (n : Nat) :
    (engineSteps n a).seq.stepsLeft = a.seq.stepsLeft - n := by
  induction n generalizing a with
  | zero => rfl
  | succ n ih =>
    rw [engineSteps_succ, ih (flagsInv_engineStep h), stepsLeft_engineStep h]
    omega

theorem flagsInv_engineSteps {a : Avce} (h : FlagsInv a) (n : Nat) : FlagsInv (engineSteps n a) :=
  engineSteps_keeps (P := FlagsInv) (fun _ => flagsInv_engineStep) n h

/-- Before its last step a command is in progress. -/
theorem InProgress.engineSteps {a : Avce} (h : InProgress a) {n : Nat} (hn : n < a.seq.stepsLeft) :
    InProgress (engineSteps n a) := by
  have hflags := flagsInv_engineSteps h.flagsInv n
  have hleft := stepsLeft_engineSteps h.flagsInv n
  exact hflags.inProgress (hflags.busy_of_stepsLeft (n := a.seq.stepsLeft - n - 1) (by omega))

/-- With its last step a command has succeeded (R176, R266, R307). -/
theorem InProgress.succeeds {a : Avce} (h : InProgress a) {n : Nat} (hn : a.seq.stepsLeft = n) :
    Succeeded (Machine.engineSteps n a) := by
  have hpos : n ≠ 0 := fun h0 => h.sequenced (Seq.stepsLeft_eq_zero.mp (hn.trans h0))
  obtain ⟨m, rfl⟩ : ∃ m, n = m + 1 := ⟨n - 1, by omega⟩
  have hend := stepsLeft_engineSteps h.flagsInv (m + 1)
  rw [engineSteps_succ_last] at hend ⊢
  refine (h.engineSteps (n := m) (by omega)).continues_or_succeeds.resolve_left fun hp => ?_
  exact hp.sequenced (Seq.stepsLeft_eq_zero.mp (by omega))

theorem Succeeded.statusWord_eq {a : Avce} (h : Succeeded a) : statusWord a = 6 := by
  rw [statusWord, h.busy, h.done, h.ok]
  rfl

theorem Succeeded.errWord_eq {a : Avce} (h : Succeeded a) : errWord a.errinfo = 0 := by
  rw [h.noError]
  rfl

/-- With no event left the machine runs the engine alone (assumption log 1). -/
theorem core_run_engine {s : State} (h : s.schedule = []) (n : Nat) :
    core.run n s = .next { s with avce := engineSteps n s.avce } := by
  induction n generalizing s with
  | zero => rfl
  | succ n ih =>
    rw [core_run_succ n s _ (step_of_nil h), ih (s := { s with avce := engineStep s.avce }) h, engineSteps_succ]

/-- Settles O45: the engine steps that are left are at most 56, and the last of them publishes the result. -/
theorem everyStartedCommandCompletes : Obligations.EveryStartedCommandCompletes := by
  intro s hflags hb hs
  have hend := (hflags.inProgress hb).succeeds rfl
  exact ⟨_, _, s.avce.seq.stepsLeft_le, core_run_engine hs _, hend.statusWord_eq, hend.idle⟩

/-! ### A command that has just started -/

/-- A passing START of the command `i`: its operands latched over the cleared registers (R93). -/
def latched (i : Instr) (a : Avce) : Avce :=
  if i.fields.alg = 1 then latchDes i.fields.dec i.fields.trc (clearForStart (encode i) a)
  else latchAes i.fields.dec i.fields.trc (clearForStart (encode i) a)

theorem latched_des {i : Instr} (h : i.fields.alg = 1) (a : Avce) :
    latched i a = latchDes i.fields.dec i.fields.trc (clearForStart (encode i) a) := if_pos h

theorem latched_aes {i : Instr} (h : i.fields.alg ≠ 1) (a : Avce) :
    latched i a = latchAes i.fields.dec i.fields.trc (clearForStart (encode i) a) := if_neg h

theorem needOf_des {i : Instr} (h : i.fields.alg = 1) : needOf i = needDes := if_pos h

theorem needOf_aes {i : Instr} (h : i.fields.alg ≠ 1) : needOf i = needAes := if_neg h

theorem stepsOf_des {i : Instr} (h : i.fields.alg = 1) : stepsOf i = 35 := if_pos h

theorem stepsOf_aes {i : Instr} (h : i.fields.alg ≠ 1) : stepsOf i = 56 := if_neg h

theorem exec_of_valid {i : Instr} {s : State} (hb : s.avce.busy = false) (hv : OperandsValid (needOf i) s.avce) :
    exec i s = .next { s with avce := latched i s.avce } := by
  by_cases halg : i.fields.alg = 1
  · rw [latched_des halg, exec_of_desValid halg hb (needOf_des halg ▸ hv)]
  · rw [latched_aes halg, exec_of_aesValid halg hb (needOf_aes halg ▸ hv)]

/-- The command `i` has passed its START, and its first engine step comes next (R175, R265). -/
structure Started (i : Instr) (a : Avce) : Prop where
  running : InProgress a
  inv : CommandInv a
  steps : a.seq.stepsLeft = stepsOf i
  cmd : a.cmd = encode i
  cmdr : a.cmdr = ⟨i.fields.alg, i.fields.dec, i.fields.trc⟩

theorem started_latched (i : Instr) (a : Avce) : Started i (latched i a) := by
  by_cases halg : i.fields.alg = 1
  · rw [latched_des halg]
    have hrun := inProgress_latchDes halg a
    have hnone : NoResult (latchDes i.fields.dec i.fields.trc (clearForStart (encode i) a)) := ⟨rfl, rfl, rfl, rfl, rfl⟩
    have hphase := (phaseInv_desPc1 (latchDes_seq i.fields.dec i.fields.trc (clearForStart (encode i) a))).mpr rfl
    exact ⟨hrun, ⟨hrun.flagsInv, ⟨hphase, hnone.resultCorrect⟩, hnone.resultInv⟩, (stepsOf_des halg).symm, rfl,
      by rw [halg]; rfl⟩
  · rw [latched_aes halg]
    have hrun := inProgress_latchAes halg a
    have hnone : NoResult (latchAes i.fields.dec i.fields.trc (clearForStart (encode i) a)) := ⟨rfl, rfl, rfl, rfl, rfl⟩
    have hphase := (phaseInv_aesKx (latchAes_seq i.fields.dec i.fields.trc (clearForStart (encode i) a))).mpr
      ⟨rfl, fun j hj => absurd hj (Nat.not_lt_zero _)⟩
    exact ⟨hrun, ⟨hrun.flagsInv, ⟨hphase, hnone.resultCorrect⟩, hnone.resultInv⟩, (stepsOf_aes halg).symm, rfl,
      by rw [fields_alg_eq_two halg]; rfl⟩

theorem Started.statusWord_before_end {i : Instr} {a : Avce} (h : Started i a) {k : Nat} (hk : k < stepsOf i) :
    statusWord (engineSteps k a) = 1 :=
  (h.running.engineSteps (h.steps.symm ▸ hk)).statusWord_eq

theorem Started.succeeds {i : Instr} {a : Avce} (h : Started i a) : Succeeded (engineSteps (stepsOf i) a) :=
  h.running.succeeds h.steps

theorem Started.cmdr_after {i : Instr} {a : Avce} (h : Started i a) (n : Nat) :
    (engineSteps n a).cmdr = ⟨i.fields.alg, i.fields.dec, i.fields.trc⟩ :=
  (engineSteps_sameInputs n a).cmdr.trans h.cmdr

/-- One step before its end a command is at DES_FP or at AES_OUT, by its algorithm (R175, R265). -/
theorem Seq.last_of_stepsLeft {q : Seq} (h : q.stepsLeft = 1) : q = .desFp ∨ q = .aesOut := by
  cases q with
  | desFp => exact .inl rfl
  | aesOut => exact .inr rfl
  | idle | desPc1 | desIp | aesArk0 => cases h
  | desKs r | desRnd r | aesKx r | aesRnd r =>
    simp only [Seq.stepsLeft] at h
    omega

end Sys2Proof.Machine
end

-- The proofs of the family 43_des_commands.md: the four commands and their results
section
/-! What the four DES commands leave (43_des_commands.md R171 to R174, R176), and that the direct and the traced command
of one function publish the same result (R181; 47_aes_commands.md R272). -/

namespace Sys2Proof.Machine

/-! ### The last step of a command -/

/-- `b` are the registers of the command `i`, which started from `a`, before its last engine step. -/
structure BeforeEnd (i : Instr) (a b : Avce) : Prop where
  inputs : SameInputs a b
  cmdr : b.cmdr = ⟨i.fields.alg, i.fields.dec, i.fields.trc⟩
  running : InProgress b
  inv : CommandInv b
  last : engineSteps (stepsOf i) a = engineStep b
  oneLeft : b.seq.stepsLeft = 1

theorem stepsOf_pos (i : Instr) : 0 < stepsOf i := by
  cases i <;> decide

theorem Started.beforeEnd {i : Instr} {a : Avce} (h : Started i a) : ∃ b, BeforeEnd i a b := by
  obtain ⟨n, hn⟩ : ∃ n, stepsOf i = n + 1 := ⟨stepsOf i - 1, by have := stepsOf_pos i; omega⟩
  have hsteps : a.seq.stepsLeft = n + 1 := h.steps.trans hn
  exact ⟨engineSteps n a,
    { inputs := engineSteps_sameInputs n a
      cmdr := h.cmdr_after n
      running := h.running.engineSteps (by omega)
      inv := h.inv.engineSteps n
      last := by rw [hn, engineSteps_succ_last]
      oneLeft := by rw [stepsLeft_engineSteps h.inv.flags, hsteps, Nat.add_sub_cancel_left] }⟩

/-- The last step of a DES command is DES_FP. -/
theorem BeforeEnd.des {i : Instr} {a b : Avce} (h : BeforeEnd i a b) (halg : i.fields.alg = 1) :
    b.seq = .desFp ∧ engineSteps 35 a = stepDesFp b := by
  have hlast := h.last
  rw [stepsOf_des halg] at hlast
  rcases Seq.last_of_stepsLeft h.oneLeft with hs | hs
  · exact ⟨hs, hlast.trans (engineStep_desFp h.running.busy hs)⟩
  · have haes := ((phaseInv_aesOut hs).mp h.inv.engine.phase).1
    rw [h.cmdr] at haes
    exact absurd (halg.symm.trans haes) (by decide)

/-- The last step of an AES command is AES_OUT. -/
theorem BeforeEnd.aes {i : Instr} {a b : Avce} (h : BeforeEnd i a b) (halg : i.fields.alg ≠ 1) :
    b.seq = .aesOut ∧ engineSteps 56 a = stepAesOut b := by
  have hlast := h.last
  rw [stepsOf_aes halg] at hlast
  rcases Seq.last_of_stepsLeft h.oneLeft with hs | hs
  · have hdes := ((phaseInv_desFp hs).mp h.inv.engine.phase).1
    rw [h.cmdr] at hdes
    exact absurd hdes halg
  · have hstep : engineStep b = stepAesOut b := by rw [engineStep_busy h.running.busy, sequencedStep, hs]
    exact ⟨hs, hlast.trans hstep⟩

/-! ### What a DES command leaves -/

/-- No step of a DES command touches the registers S and W of the AES engine (R34, R35). -/
theorem engineStep_des_aesRegisters {a : Avce} (hp : PhaseInv a) (halg : a.cmdr.alg = 1) :
    (engineStep a).st = a.st ∧ (engineStep a).w = a.w := by
  have hnot : a.cmdr.alg ≠ 2 := by rw [halg]; decide
  cases hb : a.busy with
  | false => rw [engineStep_idle hb]; exact ⟨rfl, rfl⟩
  | true =>
    rw [engineStep_busy hb]
    cases hs : a.seq with
    | idle | desPc1 | desKs | desIp | desRnd | desFp => rw [sequencedStep, hs]; exact ⟨rfl, rfl⟩
    | aesKx => exact absurd ((phaseInv_aesKx hs).mp hp).1 hnot
    | aesArk0 => exact absurd ((phaseInv_aesArk0 hs).mp hp).1 hnot
    | aesRnd => exact absurd ((phaseInv_aesRnd hs).mp hp).1 hnot
    | aesOut => exact absurd ((phaseInv_aesOut hs).mp hp).1 hnot

theorem engineSteps_des_aesRegisters {a : Avce} (hp : PhaseInv a) (halg : a.cmdr.alg = 1) (n : Nat) :
    (engineSteps n a).st = a.st ∧ (engineSteps n a).w = a.w := by
  induction n generalizing a with
  | zero => exact ⟨rfl, rfl⟩
  | succ n ih =>
    have hone := engineStep_des_aesRegisters hp halg
    have hrest := ih (phaseInv_engineStep hp) ((engineStep_sameInputs a).cmdr ▸ halg)
    exact ⟨hrest.1.trans hone.1, hrest.2.trans hone.2⟩

/-- The engine registers at the end of a DES command are those that DES_FP found (R32, R33). -/
theorem Started.des_engine {i : Instr} {a : Avce} (h : Started i a) (halg : i.fields.alg = 1) :
    ((engineSteps 35 a).c, (engineSteps 35 a).d) = desHalves a.dkey 16 ∧
      ((engineSteps 35 a).l, (engineSteps 35 a).r) = desPair i.fields.dec a.dtext a.dkey 16 ∧
      ∀ j : Fin 16, (engineSteps 35 a).k[j] = desSubkey a.dkey (j.val + 1) := by
  obtain ⟨b, hb⟩ := h.beforeEnd
  obtain ⟨hs, hlast⟩ := hb.des halg
  obtain ⟨-, hcd, hk, hlr⟩ := (phaseInv_desFp hs).mp hb.inv.engine.phase
  obtain ⟨htext, hkey⟩ := hb.inputs.desOperands
  rw [HasSubkeys, hkey] at hk
  rw [hkey] at hcd
  rw [htext, hkey, hb.cmdr] at hlr
  rw [hlast]
  exact ⟨hcd, hlr, fun j => hk j j.isLt⟩

/-- The result of a DES command, wherever it is published (R161, R162, R176). -/
theorem Started.des_result {i : Instr} {a : Avce} (h : Started i a) (halg : i.fields.alg = 1) :
    (engineSteps 35 a).dout = desDout (desBlock i.fields.dec a.dtext a.dkey) ∧
      (∀ j : Fin 32, (engineSteps 35 a).outBuf[j] =
        if j.val < 16 then hexEncAt (desBlock i.fields.dec a.dtext a.dkey) j.val else 0) ∧
      (engineSteps 35 a).outLen = 16 ∧
      (engineSteps 35 a).traceLen = if i.fields.trc = true then 400 else 0 := by
  have hok : (engineSteps 35 a).ok = true := (stepsOf_des halg ▸ h.succeeds).ok
  have hcmdr := h.cmdr_after 35
  have halg' : (engineSteps 35 a).cmdr.alg = 1 := by rw [hcmdr]; exact halg
  have hne : ¬(engineSteps 35 a).cmdr.alg = 2 := by rw [halg']; decide
  obtain ⟨htext, hkey⟩ := (engineSteps_sameInputs 35 a).desOperands
  have hinv := h.inv.engineSteps 35
  have hdout : (engineSteps 35 a).dout = desDout (desBlock i.fields.dec a.dtext a.dkey) := by
    obtain ⟨-, hd⟩ := ((resultCorrect_iff _).mp hinv.engine.result hok).resolve_right fun h2 => hne h2.1
    rw [hd, hcmdr, htext, hkey]
  obtain ⟨-, -, hdigits⟩ := hinv.result.des_digits hok halg'
  have htrace := hinv.result.trace_length hok
  rw [if_pos halg', hcmdr] at htrace
  refine ⟨hdout, fun j => ?digit, ?len, htrace⟩
  case digit =>
    have hword : (engineSteps 35 a).dout[0] ++ (engineSteps 35 a).dout[1] = desBlock i.fields.dec a.dtext a.dkey := by
      rw [hdout]
      exact hiWord_append_loWord _
    rw [hdigits j, hword]
  case len => exact ((hinv.result.length_of_result hok).resolve_right fun h2 => hne h2.1).2

/-- A passing START of a DES command and its 35 engine steps, from any registers `a` (R171 to R174). -/
theorem desFinished_latched {i : Instr} (halg : i.fields.alg = 1) (a : Avce) :
    DesFinished (encode i) i.fields.dec i.fields.trc (desOperand a.textBuf) (desOperand a.keyBuf) a
      (engineSteps 35 (latched i a)) := by
  have hstarted := started_latched i a
  have hsucceeds : Succeeded (engineSteps 35 (latched i a)) := stepsOf_des halg ▸ hstarted.succeeds
  obtain ⟨hdout, houtBuf, houtLen, -⟩ := hstarted.des_result halg
  obtain ⟨hcd, hlr, hk⟩ := hstarted.des_engine halg
  have hcmdr := hstarted.cmdr_after 35
  obtain ⟨hst, hw⟩ := engineSteps_des_aesRegisters hstarted.inv.engine.phase (hstarted.cmdr ▸ halg) 35
  have hinputs := engineSteps_sameInputs 35 (latched i a)
  have hlatch := latched_des halg a
  rw [halg] at hcmdr
  generalize engineSteps 35 (latched i a) = u at *
  rw [hlatch] at *
  exact
    { dout := hdout
      outBuf := houtBuf
      outLen := houtLen
      status := hsucceeds.statusWord_eq
      errinfo := hsucceeds.errWord_eq
      sequencer := hsucceeds.idle
      command := ⟨hinputs.cmd, hcmdr, hinputs.desOperands⟩
      halves := ⟨hcd, hlr⟩
      subkeys := hk
      inputs := ⟨hinputs.lengths.1, hinputs.lengths.2, hinputs.buffers⟩
      aesRegisters := ⟨hinputs.aesOperands.2, hinputs.aesOperands.1, hst, hw⟩ }

/-- A DES command on valid operands: its START, the 35 engine steps, and what they leave (R171 to R174). -/
theorem desCommand_runs {i : Instr} (halg : i.fields.alg = 1) {s : State} (hb : s.avce.busy = false)
    (hv : OperandsValid 16 s.avce) :
    ∃ t, exec i s = .next t ∧ (∀ k, k < 35 → statusWord (engineSteps k t.avce) = 1) ∧
      DesFinished (encode i) i.fields.dec i.fields.trc (desOperand s.avce.textBuf) (desOperand s.avce.keyBuf) s.avce
        (engineSteps 35 t.avce) ∧
      (engineSteps 35 t.avce).traceLen = (if i.fields.trc = true then 400 else 0) ∧
      (i.fields.trc = false → (engineSteps 35 t.avce).trace = s.avce.trace) := by
  have hstarted := started_latched i s.avce
  have hexec := exec_of_valid hb (show OperandsValid (needOf i) s.avce from (needOf_des halg).symm ▸ hv)
  obtain ⟨-, -, -, htraceLen⟩ := hstarted.des_result halg
  refine ⟨_, hexec, fun k hk => hstarted.statusWord_before_end ((stepsOf_des halg).symm ▸ hk), desFinished_latched halg _,
    htraceLen, fun hdirect => ?trace⟩
  case trace =>
    have hcmdr : (latched i s.avce).cmdr.trc = false := by rw [hstarted.cmdr]; exact hdirect
    refine (engineSteps_trace_direct 35 hcmdr).trans ?_
    rw [latched_des halg, latchDes_trace, clearForStart_trace]

/-- Settles O13: `desCommand_runs` of the direct encryption. -/
theorem desEncEncrypts : Obligations.DesEncEncrypts := by
  intro s hb hv
  obtain ⟨t, hexec, hbusy, hfinished, htraceLen, htrace⟩ := desCommand_runs (i := .desEnc) rfl hb hv
  exact ⟨t, hexec, hbusy, hfinished, htraceLen, htrace rfl⟩

/-- Settles O14: `desCommand_runs` of the direct decryption. -/
theorem desDecDecrypts : Obligations.DesDecDecrypts := by
  intro s hb hv
  obtain ⟨t, hexec, hbusy, hfinished, htraceLen, htrace⟩ := desCommand_runs (i := .desDec) rfl hb hv
  exact ⟨t, hexec, hbusy, hfinished, htraceLen, htrace rfl⟩

/-- Settles O15: `desCommand_runs` of the traced encryption. -/
theorem desEncTracedEncrypts : Obligations.DesEncTracedEncrypts := by
  intro s hb hv
  obtain ⟨t, hexec, hbusy, hfinished, htraceLen, -⟩ := desCommand_runs (i := .desEncT) rfl hb hv
  exact ⟨t, hexec, hbusy, hfinished, htraceLen⟩

/-- Settles O16: `desCommand_runs` of the traced decryption. -/
theorem desDecTracedDecrypts : Obligations.DesDecTracedDecrypts := by
  intro s hb hv
  obtain ⟨t, hexec, hbusy, hfinished, htraceLen, -⟩ := desCommand_runs (i := .desDecT) rfl hb hv
  exact ⟨t, hexec, hbusy, hfinished, htraceLen⟩

end Sys2Proof.Machine
end

-- The proofs of the family 43_des_commands.md: two commands on the same operands
section
/-! Two commands of one algorithm and direction, on the same operands, publish the same result, direct or traced
(43_des_commands.md R181; 47_aes_commands.md R272; 00_scope.md R15). -/

namespace Sys2Proof.Machine

/-! ### Operands -/

/-- A command reads no character from `need` on (R90). -/
theorem operand_congr {x y : Vector Word Config.bufCap} {need : Nat}
    (h : ∀ i : Fin 32, i.val < need → x[i] = y[i]) : operand x need = operand y need := by
  refine List.ext_getElem (by simp [operand]) fun j hj hj' => ?_
  have hlt : j < need ∧ j < 32 := by simpa [operand] using hj
  have hx := operand_getElem x need ⟨j, hlt.2⟩ hj
  have hy := operand_getElem y need ⟨j, hlt.2⟩ hj'
  exact hx.trans ((h ⟨j, hlt.2⟩ hlt.1).trans hy.symm)

theorem SameOperands.refl (need : Nat) (a : Avce) : SameOperands need a a := ⟨rfl, rfl, fun _ _ => ⟨rfl, rfl⟩⟩

theorem SameOperands.text {need : Nat} {a b : Avce} (h : SameOperands need a b) :
    operand a.textBuf need = operand b.textBuf need := operand_congr fun i hi => (h.2.2 i hi).1

theorem SameOperands.key {need : Nat} {a b : Avce} (h : SameOperands need a b) :
    operand a.keyBuf need = operand b.keyBuf need := operand_congr fun i hi => (h.2.2 i hi).2

/-- Step 4 of START finds the same in the same operands (R93, R106). -/
theorem SameOperands.operandFault_eq {need : Nat} {a b : Avce} (h : SameOperands need a b) :
    operandFault need a = operandFault need b := by
  have htext : check a.textBuf a.textLen need = check b.textBuf b.textLen need := by rw [check, check, h.text, h.1]
  have hkey : check a.keyBuf a.keyLen need = check b.keyBuf b.keyLen need := by rw [check, check, h.key, h.2.1]
  rw [operandFault, operandFault, htext, hkey]

/-! ### The same cipher on the same operands -/

/-- `a` and `b` run the same algorithm in the same direction on the same latched operands; the latched operands of the
other algorithm may differ. -/
structure SameCipher (a b : Avce) : Prop where
  alg : a.cmdr.alg = b.cmdr.alg
  dec : a.cmdr.dec = b.cmdr.dec
  des : a.cmdr.alg = 1 → a.dtext = b.dtext ∧ a.dkey = b.dkey
  aes : a.cmdr.alg = 2 → a.atext = b.atext ∧ a.akey = b.akey

theorem SameCipher.of_sameInputs {a b u v : Avce} (h : SameCipher a b) (hu : SameInputs a u) (hv : SameInputs b v) :
    SameCipher u v where
  alg := by rw [hu.cmdr, hv.cmdr, h.alg]
  dec := by rw [hu.cmdr, hv.cmdr, h.dec]
  des := by
    rw [hu.cmdr, hu.desOperands.1, hu.desOperands.2, hv.desOperands.1, hv.desOperands.2]
    exact h.des
  aes := by
    rw [hu.cmdr, hu.aesOperands.1, hu.aesOperands.2, hv.aesOperands.1, hv.aesOperands.2]
    exact h.aes

theorem sameCipher_latched {i i' : Instr} (halg : i'.fields.alg = i.fields.alg) (hdec : i'.fields.dec = i.fields.dec)
    {a b : Avce} (h : SameOperands (needOf i) a b) : SameCipher (latched i a) (latched i' b) := by
  by_cases hdes : i.fields.alg = 1
  · rw [needOf_des hdes] at h
    rw [latched_des hdes, latched_des (halg.trans hdes)]
    refine ⟨rfl, hdec.symm, fun _ => ⟨?_, ?_⟩, nofun⟩
    · exact congrArg (hexDec 64) h.text
    · exact congrArg (hexDec 64) h.key
  · rw [needOf_aes hdes] at h
    rw [latched_aes hdes, latched_aes (halg ▸ hdes)]
    refine ⟨rfl, hdec.symm, nofun, fun _ => ⟨?_, ?_⟩⟩
    · exact congrArg (fun cs => bytesOf (hexDec 128 cs)) h.text
    · exact congrArg (fun cs => bytesOf (hexDec 128 cs)) h.key

/-! ### The same published result -/

/-- `a` and `b` show the host the same status, error word and result: the trace apart, all of R181's and R272's. -/
structure SamePublished (a b : Avce) : Prop where
  status : statusWord a = statusWord b
  errinfo : errWord a.errinfo = errWord b.errinfo
  outLen : a.outLen = b.outLen
  outBuf : a.outBuf = b.outBuf
  dout : a.dout = b.dout

theorem SameCipher.dout_eq {a b : Avce} (h : SameCipher a b) (ha : ResultCorrect a) (hb : ResultCorrect b)
    (hoka : a.ok = true) (hokb : b.ok = true) : a.dout = b.dout := by
  rcases (resultCorrect_iff a).mp ha hoka with ⟨halg, hda⟩ | ⟨halg, hda⟩ <;>
    rcases (resultCorrect_iff b).mp hb hokb with ⟨halg', hdb⟩ | ⟨halg', hdb⟩
  · rw [hda, hdb, h.dec, (h.des halg).1, (h.des halg).2]
  · exact absurd (halg.symm.trans (h.alg.trans halg')) (by decide)
  · exact absurd (halg'.symm.trans (h.alg.symm.trans halg)) (by decide)
  · rw [← Vector.toList_inj, hda, hdb, h.dec, (h.aes halg).1, (h.aes halg).2]

/-- OUT_LEN and OUT_BUF of a result are a function of the algorithm and of DOUT (R27, R28). -/
theorem ResultInv.out_eq {a b : Avce} (ha : ResultInv a) (hb : ResultInv b) (hoka : a.ok = true) (hokb : b.ok = true)
    (halg : a.cmdr.alg = b.cmdr.alg) (hdout : a.dout = b.dout) : a.outLen = b.outLen ∧ a.outBuf = b.outBuf := by
  rcases ha.length_of_result hoka with ⟨h, hlen⟩ | ⟨h, hlen⟩ <;>
    rcases hb.length_of_result hokb with ⟨h', hlen'⟩ | ⟨h', hlen'⟩
  · refine ⟨hlen.trans hlen'.symm, Vector.ext fun j hj => ?_⟩
    have hja := (ha.des_digits hoka h).2.2 ⟨j, hj⟩
    have hjb := (hb.des_digits hokb h').2.2 ⟨j, hj⟩
    rw [hdout] at hja
    exact hja.trans hjb.symm
  · exact absurd (h.symm.trans (halg.trans h')) (by decide)
  · exact absurd (h'.symm.trans (halg.symm.trans h)) (by decide)
  · refine ⟨hlen.trans hlen'.symm, Vector.ext fun j hj => ?_⟩
    have hja := ha.aes_digits hoka h ⟨j, hj⟩
    have hjb := hb.aes_digits hokb h' ⟨j, hj⟩
    rw [hdout] at hja
    exact hja.trans hjb.symm

/-- Two commands that have started with the same cipher on the same operands end with the same published result. -/
theorem Started.samePublished {i i' : Instr} {a b : Avce} (ha : Started i a) (hb : Started i' b)
    (h : SameCipher a b) : SamePublished (engineSteps (stepsOf i) a) (engineSteps (stepsOf i') b) := by
  have hcipher := h.of_sameInputs (engineSteps_sameInputs (stepsOf i) a) (engineSteps_sameInputs (stepsOf i') b)
  have hinva := ha.inv.engineSteps (stepsOf i)
  have hinvb := hb.inv.engineSteps (stepsOf i')
  have hdout := hcipher.dout_eq hinva.engine.result hinvb.engine.result ha.succeeds.ok hb.succeeds.ok
  obtain ⟨hlen, hbuf⟩ := hinva.result.out_eq hinvb.result ha.succeeds.ok hb.succeeds.ok hcipher.alg hdout
  exact
    { status := ha.succeeds.statusWord_eq.trans hb.succeeds.statusWord_eq.symm
      errinfo := ha.succeeds.errWord_eq.trans hb.succeeds.errWord_eq.symm
      outLen := hlen
      outBuf := hbuf
      dout := hdout }

/-! ### The output words of a trace header -/

theorem stepAesOut_traceWrites (a : Avce) : TraceWrites a (stepAesOut a) 9 (blockWords a.st) := by
  refine traceWrites_of_traceIf (stepAesOut_trace a) ?fit
  simp [blockWords, Config.traceCap]

/-- R177: header words 11 and 12 are the result that DES_FP publishes in DOUT. -/
theorem stepDesFp_header_dout {a : Avce} (h : a.cmdr.trc = true) :
    (stepDesFp a).trace.readWord 11 = (stepDesFp a).dout[0] ∧
      (stepDesFp a).trace.readWord 12 = (stepDesFp a).dout[1] :=
  ⟨(stepDesFp_traceWrites a).2 h 11, (stepDesFp_traceWrites a).2 h 12⟩

/-- R267: header words 9 to 12 are the result that AES_OUT publishes in DOUT. -/
theorem stepAesOut_header_dout {a : Avce} (h : a.cmdr.trc = true) (c : Fin 4) :
    (stepAesOut a).trace.readWord (9 + c.val) = (stepAesOut a).dout[c] := by
  have hword := (stepAesOut_traceWrites a).2 h (9 + c.val)
  match c with
  | 0 | 1 | 2 | 3 => exact hword

/-! ### The direct and the traced command -/

theorem alg_commandOf_des (dec trc : Bool) : (commandOf false dec trc).fields.alg = 1 := by
  rw [fields_commandOf]
  rfl

theorem alg_commandOf_aes (dec trc : Bool) : (commandOf true dec trc).fields.alg ≠ 1 := by
  rw [fields_commandOf]
  decide +revert

/-- The two commands of one function latch the same operands, so their published results are the same. -/
theorem direct_traced_samePublished (aes dec : Bool) (a : Avce) :
    SamePublished
      (engineSteps (stepsOf (commandOf aes dec true)) (latched (commandOf aes dec true) a))
      (engineSteps (stepsOf (commandOf aes dec false)) (latched (commandOf aes dec false) a)) := by
  refine (started_latched _ a).samePublished (started_latched _ a) (sameCipher_latched ?_ ?_ (.refl _ a)) <;>
    simp only [fields_commandOf]

/-- Settles O23: both commands latch the same operands, and the last step of the traced one writes the header words of
the result. -/
theorem tracedAndDirectAgree : Obligations.TracedAndDirectAgree := by
  refine ⟨fun dec s hb hv => ?des, fun dec s hb hv => ?aes⟩
  case des =>
    have hd := alg_commandOf_des dec false
    have ht := alg_commandOf_des dec true
    have hsame := direct_traced_samePublished false dec s.avce
    obtain ⟨b, hbefore⟩ := (started_latched (commandOf false dec true) s.avce).beforeEnd
    have hlast := (hbefore.des ht).2
    have htrc : b.cmdr.trc = true := by rw [hbefore.cmdr, fields_commandOf]
    obtain ⟨h11, h12⟩ := stepDesFp_header_dout htrc
    rw [← hlast] at h11 h12
    rw [stepsOf_des hd, stepsOf_des ht] at hsame
    exact ⟨_, _, exec_of_valid hb ((needOf_des hd).symm ▸ hv), exec_of_valid hb ((needOf_des ht).symm ▸ hv), hsame.dout,
      hsame.outBuf, hsame.outLen, hsame.status, hsame.errinfo, h11, h12⟩
  case aes =>
    have hd := alg_commandOf_aes dec false
    have ht := alg_commandOf_aes dec true
    have hsame := direct_traced_samePublished true dec s.avce
    obtain ⟨b, hbefore⟩ := (started_latched (commandOf true dec true) s.avce).beforeEnd
    have hlast := (hbefore.aes ht).2
    have htrc : b.cmdr.trc = true := by rw [hbefore.cmdr, fields_commandOf]
    have hheader := stepAesOut_header_dout htrc
    rw [← hlast] at hheader
    rw [stepsOf_aes hd, stepsOf_aes ht] at hsame
    exact ⟨_, _, exec_of_valid hb ((needOf_aes hd).symm ▸ hv), exec_of_valid hb ((needOf_aes ht).symm ▸ hv), hsame.dout,
      hsame.outBuf, hsame.outLen, hsame.status, hsame.errinfo, hheader⟩

end Sys2Proof.Machine
end

-- The proofs of the family 43_des_commands.md: what the engine steps write to the trace memory
section
/-! The trace words of every engine step as a function of the command and its operands alone (43_des_commands.md R177 to
R179; 47_aes_commands.md R267 to R270). -/

namespace Sys2Proof.Machine

/-! ### The run of words of each step -/

/-- Consecutive trace words and the index of the first. -/
structure TraceRun where
  offset : Nat
  words : List Word

/-- `j` is the index of one of the words. -/
def TraceRun.covers (run : TraceRun) (j : Nat) : Prop := run.offset ≤ j ∧ j < run.offset + run.words.length

/-- What the step that `q` selects writes when the command, direction and operands are those that `a` has latched: the
header, the records and the header words of the initial state and the result, each with the values of the key schedule
and of the rounds in place of the engine's registers. -/
def prescribedRun (a : Avce) : Seq → TraceRun
  | .idle => ⟨0, []⟩
  | .desPc1 => ⟨0, desHeader a.cmd a.dkey a.dtext (desHalves a.dkey 0).1 (desHalves a.dkey 0).2⟩
  | .desKs r => ⟨desKeyOffset (r.val + 1), desFinalKeyRecord a.dkey (r.val + 1)⟩
  | .desIp => ⟨7, [(desPair a.cmdr.dec a.dtext a.dkey 0).1, (desPair a.cmdr.dec a.dtext a.dkey 0).2]⟩
  | .desRnd r => ⟨desRoundOffset (r.val + 1), desFinalRoundRecord a.cmdr.dec a.dtext a.dkey (r.val + 1)⟩
  | .desFp =>
    ⟨9, [(desPair a.cmdr.dec a.dtext a.dkey 16).1, (desPair a.cmdr.dec a.dtext a.dkey 16).2,
      hiWord (desBlock a.cmdr.dec a.dtext a.dkey), loWord (desBlock a.cmdr.dec a.dtext a.dkey)]⟩
  | .aesKx i =>
    if i.val = 0 then ⟨0, aesHeader a.cmd a.akey a.atext ++ aesFinalKeyRecord a.akey i.val⟩
    else ⟨aesKeyOffset i.val, aesFinalKeyRecord a.akey i.val⟩
  | .aesArk0 => ⟨aesRoundOffset 0, aesFinalRoundRecord a.cmdr.dec a.atext a.akey 0⟩
  | .aesRnd r => ⟨aesRoundOffset (r.val + 1), aesFinalRoundRecord a.cmdr.dec a.atext a.akey (r.val + 1)⟩
  | .aesOut => ⟨9, blockWords (aesState a.cmdr.dec a.atext a.akey 10)⟩

/-! ### The steps write these runs -/

theorem stepDesKs_trace_prescribed {a : Avce} {r : Fin 16} (hcd : (a.c, a.d) = desHalves a.dkey r.val) :
    (stepDesKs r a).trace = traceIf a (desKeyOffset (r.val + 1)) (desFinalKeyRecord a.dkey (r.val + 1)) := by
  simp [desFinalKeyRecord, desSubkey, desHalves, ← hcd, rotateHalves]

theorem stepDesRnd_trace_prescribed {a : Avce} {r : Fin 16} (hk : HasSubkeys a 16)
    (hlr : (a.l, a.r) = desPair a.cmdr.dec a.dtext a.dkey r.val) :
    (stepDesRnd r a).trace =
      traceIf a (desRoundOffset (r.val + 1)) (desFinalRoundRecord a.cmdr.dec a.dtext a.dkey (r.val + 1)) := by
  simp [desFinalRoundRecord, ← hlr, roundSubkey_eq hk]

theorem stepDesFp_trace_prescribed {a : Avce} (hlr : (a.l, a.r) = desPair a.cmdr.dec a.dtext a.dkey 16) :
    (stepDesFp a).trace = traceIf a 9 [(desPair a.cmdr.dec a.dtext a.dkey 16).1,
      (desPair a.cmdr.dec a.dtext a.dkey 16).2, hiWord (desBlock a.cmdr.dec a.dtext a.dkey),
      loWord (desBlock a.cmdr.dec a.dtext a.dkey)] := by
  rw [stepDesFp_trace, desBlock, ← hlr]

/-- Only the record of a special word reads its predecessor, and word 0 is none (R206, R268). -/
theorem aesKeyRecord_prevWord {a : Avce} {i : Fin 44} (hw : HasWords a i.val) (wi : AesWord) :
    aesKeyRecord i.val (prevWord a.w i) wi = aesKeyRecord i.val (aesWordAt a.akey (i.val - 1)) wi := by
  by_cases h0 : i.val = 0
  · rw [h0]
    rfl
  · have hprev : prevWord a.w i = aesWordAt a.akey (i.val - 1) := hw ⟨i.val - 1, by omega⟩ (by simp only; omega)
    rw [hprev]

theorem stepAesKx_trace_prescribed {a : Avce} {i : Fin 44} (hw : HasWords a i.val) :
    (stepAesKx i a).trace =
      traceIf a (prescribedRun a (.aesKx i)).offset (prescribedRun a (.aesKx i)).words := by
  rw [stepAesKx_trace, expandWord_eq hw, aesKeyRecord_prevWord hw, prescribedRun, aesFinalKeyRecord]
  split <;> rfl

theorem stepAesArk0_trace_prescribed {a : Avce} (hw : HasWords a 44) :
    (stepAesArk0 a).trace =
      traceIf a (aesRoundOffset 0) (aesFinalRoundRecord a.cmdr.dec a.atext a.akey 0) := by
  rw [stepAesArk0_trace, roundKeyFor_eq hw]
  cases a.cmdr.dec <;> rfl

theorem stepAesRnd_trace_prescribed {a : Avce} {r : Fin 10} (hw : HasWords a 44)
    (hst : a.st = aesState a.cmdr.dec a.atext a.akey r.val) :
    (stepAesRnd r a).trace =
      traceIf a (aesRoundOffset (r.val + 1)) (aesFinalRoundRecord a.cmdr.dec a.atext a.akey (r.val + 1)) := by
  rw [stepAesRnd_trace, roundKeyFor_eq hw, hst, Fin.val_succ]
  cases a.cmdr.dec <;> rfl

/-- With the engine's registers in place, a traced step writes the run of its phase, and an idle engine none. -/
theorem engineStep_trace_prescribed {a : Avce} (hf : FlagsInv a) (hp : PhaseInv a) :
    (engineStep a).trace = traceIf a (prescribedRun a a.seq).offset (prescribedRun a a.seq).words := by
  cases hb : a.busy with
  | false =>
    rw [engineStep_idle hb, hf.idle hb, prescribedRun, traceIf]
    cases a.cmdr.trc <;> rfl
  | true =>
    rw [engineStep_busy hb]
    cases hs : a.seq with
    | idle => exact absurd hs (hf.inProgress hb).sequenced
    | desPc1 | desIp => simp only [sequencedStep, hs]; rfl
    | desKs r =>
      obtain ⟨-, hcd, -⟩ := (phaseInv_desKs hs).mp hp
      simp only [sequencedStep, hs]
      exact stepDesKs_trace_prescribed hcd
    | desRnd r =>
      obtain ⟨-, -, hk, hlr⟩ := (phaseInv_desRnd hs).mp hp
      simp only [sequencedStep, hs]
      exact stepDesRnd_trace_prescribed hk hlr
    | desFp =>
      obtain ⟨-, -, -, hlr⟩ := (phaseInv_desFp hs).mp hp
      simp only [sequencedStep, hs]
      exact stepDesFp_trace_prescribed hlr
    | aesKx i =>
      simp only [sequencedStep, hs]
      exact stepAesKx_trace_prescribed ((phaseInv_aesKx hs).mp hp).2
    | aesArk0 =>
      simp only [sequencedStep, hs]
      exact stepAesArk0_trace_prescribed ((phaseInv_aesArk0 hs).mp hp).2
    | aesRnd r =>
      obtain ⟨-, hw, hst⟩ := (phaseInv_aesRnd hs).mp hp
      simp only [sequencedStep, hs]
      exact stepAesRnd_trace_prescribed hw hst
    | aesOut =>
      obtain ⟨-, -, hst⟩ := (phaseInv_aesOut hs).mp hp
      simp only [sequencedStep, hs, stepAesOut_trace, hst]
      rfl

/-! ### Their places in the trace -/

theorem length_aesKeyRecord (i : Nat) (prev wi : AesWord) : (aesKeyRecord i prev wi).length = 8 := by
  rw [aesKeyRecord]
  split <;> rfl

theorem length_aesFinalRoundRecord (dec : Bool) (text key : Block) (n : Nat) :
    (aesFinalRoundRecord dec text key n).length = 32 := by
  cases dec <;> cases n <;>
    simp [aesFinalRoundRecord, aesEncRecordZero, aesDecRecordZero, aesEncRecord, aesDecRecord, aesRecordHead, blockWords,
      absent, apply_ite List.length]

/-- Where the run of each phase starts, in the trace's layout (R177 to R179, R267 to R270). -/
def Seq.runStart : Seq → Nat
  | .idle => 0
  | .desPc1 => 0
  | .desKs r => 16 + 8 * r.val
  | .desIp => 7
  | .desRnd r => 144 + 16 * r.val
  | .desFp => 9
  | .aesKx i => if i.val = 0 then 0 else 16 + 8 * i.val
  | .aesArk0 => 368
  | .aesRnd r => 400 + 32 * r.val
  | .aesOut => 9

/-- Where it ends. -/
def Seq.runEnd : Seq → Nat
  | .idle => 0
  | .desPc1 => 16
  | .desKs r => 24 + 8 * r.val
  | .desIp => 9
  | .desRnd r => 160 + 16 * r.val
  | .desFp => 13
  | .aesKx i => 24 + 8 * i.val
  | .aesArk0 => 400
  | .aesRnd r => 432 + 32 * r.val
  | .aesOut => 13

theorem prescribedRun_offset (a : Avce) (q : Seq) : (prescribedRun a q).offset = q.runStart := by
  cases q with
  | idle | desPc1 | desIp | desFp | aesArk0 | aesOut => rfl
  | desKs r | desRnd r | aesRnd r =>
    simp only [prescribedRun, desKeyOffset, desRoundOffset, aesRoundOffset, Seq.runStart]
    omega
  | aesKx i =>
    simp only [prescribedRun, Seq.runStart]
    split <;> rfl

theorem prescribedRun_end (a : Avce) (q : Seq) :
    (prescribedRun a q).offset + (prescribedRun a q).words.length = q.runEnd := by
  rw [prescribedRun_offset]
  cases q with
  | idle | desPc1 | desIp | desFp | aesOut => rfl
  | desKs r =>
    simp only [prescribedRun, desFinalKeyRecord, length_desKeyRecord, Seq.runStart, Seq.runEnd]
    omega
  | desRnd r =>
    simp only [prescribedRun, desFinalRoundRecord, length_desRoundRecord, Seq.runStart, Seq.runEnd]
    omega
  | aesKx i =>
    by_cases h0 : i.val = 0
    · simp [prescribedRun, aesFinalKeyRecord, length_aesKeyRecord, aesHeader, blockWords, Seq.runStart, Seq.runEnd, h0]
    · simp only [prescribedRun, if_neg h0, aesFinalKeyRecord, length_aesKeyRecord, Seq.runStart, Seq.runEnd]
      omega
  | aesArk0 => simp only [prescribedRun, length_aesFinalRoundRecord, Seq.runStart, Seq.runEnd]
  | aesRnd r =>
    simp only [prescribedRun, length_aesFinalRoundRecord, Seq.runStart, Seq.runEnd]
    omega

theorem prescribedRun_covers_iff (a : Avce) (q : Seq) (j : Nat) :
    (prescribedRun a q).covers j ↔ q.runStart ≤ j ∧ j < q.runEnd := by
  rw [TraceRun.covers, prescribedRun_end, prescribedRun_offset]

theorem Seq.runEnd_le (q : Seq) : q.runEnd ≤ Config.traceCap := by
  cases q <;> simp only [Seq.runEnd, Config.traceCap] <;> omega

theorem engineStep_traceWrites {a : Avce} (hf : FlagsInv a) (hp : PhaseInv a) :
    TraceWrites a (engineStep a) (prescribedRun a a.seq).offset (prescribedRun a a.seq).words :=
  traceWrites_of_traceIf (engineStep_trace_prescribed hf hp)
    ((prescribedRun_end a a.seq).le.trans (Seq.runEnd_le a.seq))

/-- A traced step leaves the words of its run where the run lies, and every other word. -/
theorem readWord_engineStep_of_covers {a : Avce} (h : CommandInv a) (htrc : a.cmdr.trc = true) {j : Nat}
    (hj : (prescribedRun a a.seq).covers j) :
    (engineStep a).trace.readWord j =
      (prescribedRun a a.seq).words.getD (j - (prescribedRun a a.seq).offset) 0 :=
  ((engineStep_traceWrites h.flags h.engine.phase).2 htrc j).trans (if_pos hj)

theorem readWord_engineStep_of_not_covers {a : Avce} (h : CommandInv a) (htrc : a.cmdr.trc = true) {j : Nat}
    (hj : ¬(prescribedRun a a.seq).covers j) : (engineStep a).trace.readWord j = a.trace.readWord j :=
  ((engineStep_traceWrites h.flags h.engine.phase).2 htrc j).trans (if_neg hj)

end Sys2Proof.Machine
end

-- The proofs of the family 43_des_commands.md: the outcome of a command
section
/-! The outcome of a command is a function of the command and its operands alone (00_scope.md R15): two runs write the
same trace words, and what they do not write the read gate hides. -/

namespace Sys2Proof.Machine

/-! ### Two commands on the same operands -/

/-- The algorithm to which a phase belongs. -/
def Seq.alg : Seq → BitVec 4
  | .idle => 0
  | .desPc1 | .desKs _ | .desIp | .desRnd _ | .desFp => 1
  | .aesKx _ | .aesArk0 | .aesRnd _ | .aesOut => 2

theorem PhaseInv.alg_eq {a : Avce} (h : PhaseInv a) (hs : a.seq ≠ .idle) : a.seq.alg = a.cmdr.alg := by
  cases hq : a.seq with
  | idle => exact absurd hq hs
  | desPc1 => exact ((phaseInv_desPc1 hq).mp h).symm
  | desKs => exact ((phaseInv_desKs hq).mp h).1.symm
  | desIp => exact ((phaseInv_desIp hq).mp h).1.symm
  | desRnd => exact ((phaseInv_desRnd hq).mp h).1.symm
  | desFp => exact ((phaseInv_desFp hq).mp h).1.symm
  | aesKx => exact ((phaseInv_aesKx hq).mp h).1.symm
  | aesArk0 => exact ((phaseInv_aesArk0 hq).mp h).1.symm
  | aesRnd => exact ((phaseInv_aesRnd hq).mp h).1.symm
  | aesOut => exact ((phaseInv_aesOut hq).mp h).1.symm

/-- A phase writes the same words for the same command on the same operands. -/
theorem prescribedRun_congr {a b : Avce} (h : SameCipher a b) (hcmd : a.cmd = b.cmd) {q : Seq}
    (halg : q ≠ .idle → q.alg = a.cmdr.alg) : prescribedRun a q = prescribedRun b q := by
  cases q with
  | idle => rfl
  | desPc1 | desKs | desIp | desRnd | desFp =>
    obtain ⟨htext, hkey⟩ := h.des (halg nofun).symm
    simp only [prescribedRun, hcmd, h.dec, htext, hkey]
  | aesKx | aesArk0 | aesRnd | aesOut =>
    obtain ⟨htext, hkey⟩ := h.aes (halg nofun).symm
    simp only [prescribedRun, hcmd, h.dec, htext, hkey]

/-- Every trace word below this index has been written when the step that `q` selects is the next one. -/
def Seq.tracedBelow (alg : BitVec 4) : Seq → Nat
  | .idle => if alg = 1 then 400 else 720
  | .desPc1 => 0
  | .desKs r => 16 + 8 * r.val
  | .desIp => 144
  | .desRnd r => 144 + 16 * r.val
  | .desFp => 400
  | .aesKx i => if i.val = 0 then 0 else 16 + 8 * i.val
  | .aesArk0 => 368
  | .aesRnd r => 400 + 32 * r.val
  | .aesOut => 720

theorem Seq.runStart_le_tracedBelow (q : Seq) (alg : BitVec 4) : q.runStart ≤ q.tracedBelow alg := by
  cases q with
  | idle | desPc1 => exact Nat.zero_le _
  | desKs | desRnd | aesKx | aesArk0 | aesRnd => exact Nat.le_refl _
  | desIp | desFp | aesOut => simp [Seq.runStart, Seq.tracedBelow]

/-- Each step's run reaches as far as the words that count as written after it. -/
theorem Seq.tracedBelow_next {q : Seq} (hq : q ≠ .idle) :
    q.next.tracedBelow q.alg ≤ max (q.tracedBelow q.alg) q.runEnd := by
  cases q with
  | idle => exact absurd rfl hq
  | desPc1 | desIp | desFp | aesArk0 | aesOut => decide
  | desKs r | desRnd r | aesKx r | aesRnd r =>
    simp only [Seq.next]
    split <;> simp only [Seq.tracedBelow, Seq.runEnd, Nat.add_one_ne_zero, if_false] <;> omega

/-- Two traced commands in the same phase, of the same word and on the same operands, whose trace memories agree on
every word written so far. -/
structure SameTraced (a b : Avce) : Prop where
  left : CommandInv a
  right : CommandInv b
  seq : a.seq = b.seq
  cmd : a.cmd = b.cmd
  cipher : SameCipher a b
  traced : a.cmdr.trc = true ∧ b.cmdr.trc = true
  words : ∀ j, j < a.seq.tracedBelow a.cmdr.alg → a.trace.readWord j = b.trace.readWord j

/-- A step of both keeps them so: it writes the same run in both, which starts no later than the words written so far
end. -/
theorem SameTraced.engineStep {a b : Avce} (h : SameTraced a b) : SameTraced (engineStep a) (engineStep b) := by
  cases hb : a.busy with
  | false =>
    have hb' : b.busy = false :=
      Bool.eq_false_iff.mpr fun hbusy => h.right.flags.busy_iff_sequenced.mp hbusy (h.seq ▸ h.left.flags.idle hb)
    rwa [engineStep_idle hb, engineStep_idle hb']
  | true =>
    have hidle : a.seq ≠ .idle := h.left.flags.busy_iff_sequenced.mp hb
    have hb' : b.busy = true := h.right.flags.busy_iff_sequenced.mpr (h.seq ▸ hidle)
    have halg : a.seq.alg = a.cmdr.alg := h.left.engine.phase.alg_eq hidle
    have hrun : prescribedRun b b.seq = prescribedRun a a.seq :=
      h.seq ▸ (prescribedRun_congr h.cipher h.cmd fun _ => halg).symm
    have hina := engineStep_sameInputs a
    have hinb := engineStep_sameInputs b
    refine ⟨h.left.engineStep, h.right.engineStep, ?seq, ?cmd, h.cipher.of_sameInputs hina hinb, ?traced, fun j hj => ?words⟩
    case seq => rw [engineStep_seq hb, engineStep_seq hb', h.seq]
    case cmd => rw [hina.cmd, hinb.cmd, h.cmd]
    case traced => rw [hina.cmdr, hinb.cmdr]; exact h.traced
    case words =>
      by_cases hcov : (prescribedRun a a.seq).covers j
      · rw [readWord_engineStep_of_covers h.left h.traced.1 hcov,
          readWord_engineStep_of_covers h.right h.traced.2 (hrun.symm ▸ hcov), hrun]
      · rw [readWord_engineStep_of_not_covers h.left h.traced.1 hcov,
          readWord_engineStep_of_not_covers h.right h.traced.2 (hrun.symm ▸ hcov)]
        refine h.words j ?_
        rw [engineStep_seq hb, hina.cmdr, ← halg] at hj
        rw [prescribedRun_covers_iff] at hcov
        have hstart := a.seq.runStart_le_tracedBelow a.seq.alg
        have hreach := Seq.tracedBelow_next hidle
        rw [← halg]
        omega

theorem SameTraced.engineSteps {a b : Avce} (h : SameTraced a b) (n : Nat) :
    SameTraced (engineSteps n a) (engineSteps n b) := by
  induction n generalizing a b with
  | zero => exact h
  | succ n ih => exact ih h.engineStep

/-! ### The outcome -/

/-- When two traced commands on the same operands have both succeeded, every word that the read gate shows is the same
(R29, R59). -/
theorem SameTraced.gatedTrace_eq {a b : Avce} (h : SameTraced a b) (ha : Succeeded a) (hlen : a.traceLen = b.traceLen)
    (j : Nat) : gatedTrace a j = gatedTrace b j := by
  rw [gatedTrace, gatedTrace, ← hlen]
  split
  · rename_i hj
    refine h.words j ?_
    rw [h.left.result.trace_length ha.ok, if_pos h.traced.1] at hj
    rw [ha.idle, Seq.tracedBelow]
    split at hj
    · rename_i hdes
      rwa [if_pos hdes]
    · rename_i hdes
      rwa [if_neg hdes]
  · rfl

theorem latched_sameSeq (i : Instr) (a b : Avce) : (latched i a).seq = (latched i b).seq := by
  by_cases halg : i.fields.alg = 1
  · rw [latched_des halg, latched_des halg]; rfl
  · rw [latched_aes halg, latched_aes halg]; rfl

theorem tracedBelow_latched (i : Instr) (a : Avce) (alg : BitVec 4) : (latched i a).seq.tracedBelow alg = 0 := by
  by_cases halg : i.fields.alg = 1
  · rw [latched_des halg]; rfl
  · rw [latched_aes halg]; rfl

/-- The same command on the same valid operands ends with the same outcome (R15). -/
theorem latched_sameOutcome (i : Instr) {a b : Avce} (h : SameOperands (needOf i) a b) :
    SameOutcome (engineSteps (stepsOf i) (latched i a)) (engineSteps (stepsOf i) (latched i b)) := by
  have ha := started_latched i a
  have hb := started_latched i b
  have hcipher := sameCipher_latched (i := i) rfl rfl h
  have hpub := ha.samePublished hb hcipher
  have hlena := (ha.inv.engineSteps (stepsOf i)).result.trace_length ha.succeeds.ok
  have hlenb := (hb.inv.engineSteps (stepsOf i)).result.trace_length hb.succeeds.ok
  rw [ha.cmdr_after] at hlena
  rw [hb.cmdr_after] at hlenb
  have hlen := hlena.trans hlenb.symm
  refine ⟨hpub.status, hpub.errinfo, hpub.outLen, hpub.outBuf, hpub.dout, hlen, fun j => ?trace⟩
  case trace =>
    cases htrc : i.fields.trc with
    | false =>
      have hzero : (engineSteps (stepsOf i) (latched i a)).traceLen = 0 := hlena.trans (if_neg (by simp [htrc]))
      rw [gatedTrace_of_traceLen_zero hzero, gatedTrace_of_traceLen_zero (hlen ▸ hzero)]
    | true =>
      have hstart : SameTraced (latched i a) (latched i b) :=
        { left := ha.inv
          right := hb.inv
          seq := latched_sameSeq i a b
          cmd := ha.cmd.trans hb.cmd.symm
          cipher := hcipher
          traced := by rw [ha.cmdr, hb.cmdr]; exact ⟨htrc, htrc⟩
          words := fun j hj => absurd (tracedBelow_latched i a _ ▸ hj) (Nat.not_lt_zero j) }
      exact (hstart.engineSteps (stepsOf i)).gatedTrace_eq ha.succeeds hlen j

/-- While idle a START that finds a fault records it over the cleared registers (R93, R306). -/
theorem startOf_of_fault {i : Instr} {a : Avce} (hb : a.busy = false) {sub : BitVec 4} {index : BitVec 8}
    (h : operandFault (needOf i) a = some (sub, index)) :
    startOf i a = raiseError .formatError sub index (clearForStart (encode i) a) := by
  rw [startOf_eq]
  by_cases halg : i.fields.alg = 1
  · rw [needOf_des halg] at h
    simp only [if_pos halg, startDes, hb, h, Bool.false_eq_true, if_false]
  · rw [needOf_aes halg] at h
    simp only [if_neg halg, startAes, hb, h, Bool.false_eq_true, if_false]

/-- After an error the host sees the error alone: every result register is cleared (R93, R306). -/
theorem raiseError_sameOutcome {a b : Avce} (ha : a.busy = false) (hb : b.busy = false) (cls : ErrClass)
    (sub : BitVec 4) (index : BitVec 8) (v : Word) :
    SameOutcome (raiseError cls sub index (clearForStart v a)) (raiseError cls sub index (clearForStart v b)) := by
  have hstatus : statusWord (raiseError cls sub index (clearForStart v a)) =
      statusWord (raiseError cls sub index (clearForStart v b)) := by
    simp only [statusWord, raiseError_ok, raiseError_done, raiseError_busy, clearForStart_ok, clearForStart_busy, ha, hb]
  refine ⟨hstatus, rfl, rfl, rfl, rfl, rfl, fun j => ?_⟩
  rw [gatedTrace_of_traceLen_zero rfl, gatedTrace_of_traceLen_zero rfl]

theorem needOf_le (i : Instr) : needOf i ≤ 32 := by
  cases i <;> decide

/-- Settles O24: both STARTs find the same fault, and then both stay idle with it, or none, and then both commands latch
the same operands. -/
theorem outcomeDependsOnOperandsOnly : Obligations.OutcomeDependsOnOperandsOnly := by
  intro i s s' hb hb' hsame
  cases hfault : operandFault (needOf i) s.avce with
  | none =>
    have hv := (operandFault_none_iff _ (needOf_le i) _).mp hfault
    have hv' := (operandFault_none_iff _ (needOf_le i) _).mp (hsame.operandFault_eq ▸ hfault)
    exact ⟨_, _, exec_of_valid hb hv, exec_of_valid hb' hv', latched_sameOutcome i hsame⟩
  | some fault =>
    obtain ⟨sub, index⟩ := fault
    have hstart := startOf_of_fault hb hfault
    have hstart' := startOf_of_fault hb' (hsame.operandFault_eq ▸ hfault)
    refine ⟨_, _, exec_eq i s, exec_eq i s', ?_⟩
    rw [hstart, hstart', engineSteps_idle (by exact hb), engineSteps_idle (by exact hb')]
    exact raiseError_sameOutcome hb hb' _ sub index _

end Sys2Proof.Machine
end

-- The proofs of the family 43_des_commands.md: the 400 trace words
section
/-! The trace that DES.ENC.T and DES.DEC.T leave (43_des_commands.md R177 to R180): each word gets its final value from
one of the 35 engine steps, and no later step writes it again. -/

namespace Sys2Proof.Machine

/-! ### The records within the whole trace -/

/-- Word `c` of the `i`-th of some records of one length, laid end to end. -/
theorem getD_flatMap_range {len : Nat} {f : Nat → List Word} (hlen : ∀ i, (f i).length = len) {n i c : Nat} (hi : i < n)
    (hc : c < len) : ((List.range n).flatMap f).getD (len * i + c) 0 = (f i).getD c 0 := by
  induction n generalizing f i with
  | zero => exact absurd hi (Nat.not_lt_zero i)
  | succ n ih =>
    rw [List.range_succ_eq_map, List.flatMap_cons, List.flatMap_map]
    cases i with
    | zero =>
      rw [Nat.mul_zero, Nat.zero_add, List.getD_append _ _ _ _ ((hlen 0).symm ▸ hc)]
    | succ i =>
      have hafter : len * (i + 1) + c - len = len * i + c := by rw [Nat.mul_succ]; omega
      rw [List.getD_append_right _ _ _ _ (by rw [hlen 0, Nat.mul_succ]; omega), hlen 0, hafter]
      exact ih (fun k => hlen (k + 1)) (Nat.lt_of_succ_lt_succ hi)

section
variable (cmd : Word) (dec : Bool) (text key : BitVec 64)

theorem desTraceWords_header {j : Nat} (hj : j < 16) :
    (desTraceWords cmd dec text key).getD j 0 = (desFinalHeader cmd dec text key).getD j 0 := by
  have hlen : (desFinalHeader cmd dec text key).length = 16 := rfl
  rw [desTraceWords, List.append_assoc, List.getD_append _ _ _ _ (hlen.symm ▸ hj)]

theorem desTraceWords_keyRecord {i c : Nat} (hi : i < 16) (hc : c < 8) :
    (desTraceWords cmd dec text key).getD (16 + (8 * i + c)) 0 = (desFinalKeyRecord key (i + 1)).getD c 0 := by
  have hhead : (desFinalHeader cmd dec text key).length = 16 := rfl
  have hkeys : ((List.range 16).flatMap fun i => desFinalKeyRecord key (i + 1)).length = 128 := rfl
  rw [desTraceWords, List.append_assoc, List.getD_append_right _ _ _ _ (by omega), hhead, Nat.add_sub_cancel_left,
    List.getD_append _ _ _ _ (by omega)]
  exact getD_flatMap_range (f := fun i => desFinalKeyRecord key (i + 1)) (fun _ => rfl) hi hc

theorem desTraceWords_roundRecord {n c : Nat} (hn : n < 16) (hc : c < 16) :
    (desTraceWords cmd dec text key).getD (144 + (16 * n + c)) 0 =
      (desFinalRoundRecord dec text key (n + 1)).getD c 0 := by
  have hhead : (desFinalHeader cmd dec text key ++
      (List.range 16).flatMap fun i => desFinalKeyRecord key (i + 1)).length = 144 := rfl
  rw [desTraceWords, List.getD_append_right _ _ _ _ (by omega), hhead, Nat.add_sub_cancel_left]
  exact getD_flatMap_range (f := fun n => desFinalRoundRecord dec text key (n + 1)) (fun _ => rfl) hn hc

end

/-! ### The step that gives a word its final value -/

/-- The number of that step among the 35 of a DES command, counted from 0: DES_PC1 for the header but for the words of
DES_IP and of DES_FP, and the step of its record for every other word; 35 for a word that no step writes (R175, R177 to
R179). -/
def desWriter (j : Nat) : Nat :=
  if j < 7 then 0
  else if j < 9 then 17
  else if j < 13 then 34
  else if j < 16 then 0
  else if j < 144 then 1 + (j - 16) / 8
  else if j < 400 then 18 + (j - 144) / 16
  else 35

theorem desWriter_lt {j : Nat} (hj : j < 400) : desWriter j < 35 := by
  unfold desWriter
  split_ifs <;> omega

theorem Seq.des_cases {q : Seq} (h : q.alg = 1) :
    q = .desPc1 ∨ (∃ r, q = .desKs r) ∨ q = .desIp ∨ (∃ r, q = .desRnd r) ∨ q = .desFp := by
  cases q with
  | desPc1 | desIp | desFp => simp
  | desKs r | desRnd r => simp
  | idle | aesKx | aesArk0 | aesRnd | aesOut => exact absurd h (by rw [Seq.alg]; decide)

/-- The run of a DES phase lies within the 400 words, and has no word that an earlier step has made final. -/
theorem not_covered_of_desWriter {q : Seq} (hq : q.alg = 1) {j : Nat} (hj : desWriter j + q.stepsLeft < 35 ∨ 400 ≤ j) :
    ¬(q.runStart ≤ j ∧ j < q.runEnd) := by
  unfold desWriter at hj
  rcases Seq.des_cases hq with rfl | ⟨r, rfl⟩ | rfl | ⟨r, rfl⟩ | rfl <;>
    simp only [Seq.stepsLeft, Seq.runStart, Seq.runEnd] at hj ⊢ <;> split_ifs at hj <;> omega

theorem covered_of_desWriter {q : Seq} (hq : q.alg = 1) {j : Nat} (hj : desWriter j + q.stepsLeft = 35) :
    q.runStart ≤ j ∧ j < q.runEnd := by
  unfold desWriter at hj
  rcases Seq.des_cases hq with rfl | ⟨r, rfl⟩ | rfl | ⟨r, rfl⟩ | rfl <;>
    simp only [Seq.stepsLeft, Seq.runStart, Seq.runEnd] at hj ⊢ <;> split_ifs at hj <;> omega

/-- The 400 words that the command and operands latched in `a` prescribe. -/
def latchedDesTrace (a : Avce) : List Word := desTraceWords a.cmd a.cmdr.dec a.dtext a.dkey

/-- The word that the step writes is the one that the whole trace has in its place. -/
theorem prescribedRun_word (a : Avce) {q : Seq} (hq : q.alg = 1) {j : Nat} (hj : desWriter j + q.stepsLeft = 35) :
    (prescribedRun a q).words.getD (j - q.runStart) 0 = (latchedDesTrace a).getD j 0 := by
  obtain ⟨hlo, hhi⟩ := covered_of_desWriter hq hj
  rw [latchedDesTrace]
  rcases Seq.des_cases hq with rfl | ⟨r, rfl⟩ | rfl | ⟨r, rfl⟩ | rfl <;> simp only [Seq.runStart, Seq.runEnd] at hlo hhi ⊢
  · -- DES_PC1: the header but for the words that IP and FP will write
    have hplace : j < 7 ∨ 13 ≤ j := by
      simp only [desWriter, Seq.stepsLeft] at hj
      split_ifs at hj <;> omega
    rw [desTraceWords_header _ _ _ _ (by omega)]
    rcases hplace with h | h <;> interval_cases j <;> rfl
  case inr.inl =>
    obtain ⟨c, rfl⟩ : ∃ c, j = 16 + (8 * r.val + c) := ⟨j - (16 + 8 * r.val), by omega⟩
    rw [desTraceWords_keyRecord _ _ _ _ r.isLt (by omega), ← Nat.add_assoc, Nat.add_sub_cancel_left, prescribedRun]
  case inr.inr.inl =>
    rw [desTraceWords_header _ _ _ _ (by omega)]
    interval_cases j <;> rfl
  case inr.inr.inr.inl =>
    obtain ⟨c, rfl⟩ : ∃ c, j = 144 + (16 * r.val + c) := ⟨j - (144 + 16 * r.val), by omega⟩
    rw [desTraceWords_roundRecord _ _ _ _ r.isLt (by omega), ← Nat.add_assoc, Nat.add_sub_cancel_left, prescribedRun]
  case inr.inr.inr.inr =>
    rw [desTraceWords_header _ _ _ _ (by omega)]
    interval_cases j <;> rfl

/-! ### The trace of a run -/

/-- A traced DES command whose trace memory was `m` at its START: every word that a step has made final is the one
prescribed, and beyond the 400 words the memory is as it was. -/
structure DesTraced (m : Memory) (a : Avce) : Prop where
  inv : CommandInv a
  cmdr : a.cmdr.alg = 1 ∧ a.cmdr.trc = true
  final : ∀ j, desWriter j + a.seq.stepsLeft < 35 → a.trace.readWord j = (latchedDesTrace a).getD j 0
  beyond : ∀ j, 400 ≤ j → a.trace.readWord j = m.readWord j

theorem SameInputs.latchedDesTrace_eq {a u : Avce} (h : SameInputs a u) : latchedDesTrace u = latchedDesTrace a := by
  rw [latchedDesTrace, latchedDesTrace, h.cmd, h.cmdr, h.desOperands.1, h.desOperands.2]

theorem DesTraced.engineStep {m : Memory} {a : Avce} (h : DesTraced m a) : DesTraced m (engineStep a) := by
  cases hb : a.busy with
  | false => rwa [engineStep_idle hb]
  | true =>
    have hidle : a.seq ≠ .idle := h.inv.flags.busy_iff_sequenced.mp hb
    have hq : a.seq.alg = 1 := (h.inv.engine.phase.alg_eq hidle).trans h.cmdr.1
    have hin := engineStep_sameInputs a
    have hkept : ∀ j, desWriter j + a.seq.stepsLeft < 35 ∨ 400 ≤ j →
        (Machine.engineStep a).trace.readWord j = a.trace.readWord j := fun j hj =>
      readWord_engineStep_of_not_covers h.inv h.cmdr.2
        ((prescribedRun_covers_iff a a.seq j).not.mpr (not_covered_of_desWriter hq hj))
    refine ⟨h.inv.engineStep, hin.cmdr.symm ▸ h.cmdr, fun j hj => ?final, fun j hj => ?beyond⟩
    case final =>
      rw [hin.latchedDesTrace_eq]
      rw [stepsLeft_engineStep h.inv.flags] at hj
      by_cases hnow : desWriter j + a.seq.stepsLeft = 35
      · have hcov := (prescribedRun_covers_iff a a.seq j).mpr (covered_of_desWriter hq hnow)
        rw [readWord_engineStep_of_covers h.inv h.cmdr.2 hcov, prescribedRun_offset, prescribedRun_word a hq hnow]
      · have hbefore : desWriter j + a.seq.stepsLeft < 35 := by omega
        rw [hkept j (.inl hbefore), h.final j hbefore]
    case beyond => rw [hkept j (.inr hj), h.beyond j hj]

theorem desTraced_latched {i : Instr} (halg : i.fields.alg = 1) (htrc : i.fields.trc = true) (a : Avce) :
    DesTraced a.trace (latched i a) := by
  have hstarted := started_latched i a
  refine ⟨hstarted.inv, by rw [hstarted.cmdr]; exact ⟨halg, htrc⟩, fun j hj => ?final, fun j _ => ?beyond⟩
  case final =>
    rw [hstarted.steps, stepsOf_des halg] at hj
    omega
  case beyond => rw [latched_des halg, latchDes_trace, clearForStart_trace]

/-- The trace of a traced DES command on valid operands (R173, R174, R180). -/
theorem desTrace_runs {i : Instr} (halg : i.fields.alg = 1) (htrc : i.fields.trc = true) {s : State}
    (hb : s.avce.busy = false) (hv : OperandsValid 16 s.avce) :
    ∃ t, exec i s = .next t ∧ (engineSteps 35 t.avce).traceLen = 400 ∧
      (∀ j, j < 400 → (engineSteps 35 t.avce).trace.readWord j =
        (desTraceWords (encode i) i.fields.dec (desOperand s.avce.textBuf) (desOperand s.avce.keyBuf)).getD j 0) ∧
      ∀ j, 400 ≤ j → (engineSteps 35 t.avce).trace.readWord j = s.avce.trace.readWord j := by
  have hstarted := started_latched i s.avce
  have hend : DesTraced s.avce.trace (engineSteps 35 (latched i s.avce)) :=
    engineSteps_keeps (P := DesTraced s.avce.trace) (fun _ => DesTraced.engineStep) 35 (desTraced_latched halg htrc s.avce)
  have hwords : latchedDesTrace (engineSteps 35 (latched i s.avce)) =
      desTraceWords (encode i) i.fields.dec (desOperand s.avce.textBuf) (desOperand s.avce.keyBuf) := by
    rw [(engineSteps_sameInputs 35 (latched i s.avce)).latchedDesTrace_eq, latchedDesTrace, latched_des halg]
    rfl
  have hleft : (engineSteps 35 (latched i s.avce)).seq.stepsLeft = 0 := by
    rw [stepsLeft_engineSteps hstarted.inv.flags, hstarted.steps, stepsOf_des halg]
  obtain ⟨-, -, -, htraceLen⟩ := hstarted.des_result halg
  refine ⟨_, exec_of_valid hb ((needOf_des halg).symm ▸ hv), htraceLen.trans (if_pos htrc), fun j hj => ?_, hend.beyond⟩
  rw [hend.final j (by rw [hleft]; exact desWriter_lt hj), hwords]

/-- Settles O21: each of the 35 steps makes its words final, and none writes beyond the 400. -/
theorem desTraceHoldsEveryRecord : Obligations.DesTraceHoldsEveryRecord := by
  rintro i s (rfl | rfl) hb hv
  · exact desTrace_runs rfl rfl hb hv
  · exact desTrace_runs rfl rfl hb hv

end Sys2Proof.Machine
end

-- The proofs of the family 44_aes_key_expansion.md: the recurrence of the key words
section
/-! The 44 key words and the 11 round keys cut from them (44_aes_key_expansion.md R200 to R208). -/

namespace Sys2Proof.Machine

/-! ### Round keys as joined words -/

/-- R208: byte `4c + r` of the joined words is byte `r` of word `c`. -/
theorem getElem_joinWords (q : Vector AesWord 4) (c r : Fin 4) : (joinWords q)[4 * c.val + r.val] = q[c][r] := by
  have hdiv : (4 * c.val + r.val) / 4 = c.val := by omega
  have hmod : (4 * c.val + r.val) % 4 = r.val := by omega
  simp only [joinWords, Vector.getElem_ofFn, hdiv, hmod, Fin.getElem_fin]

theorem getElem_chunk (b : Block) (c r : Fin 4) : (chunk b c)[r] = b[4 * c.val + r.val] := by
  match r with
  | 0 | 1 | 2 | 3 => rfl

/-- Cutting a block into its four words and joining them gives it back (R201, R208). -/
theorem joinWords_chunks (b : Block) : joinWords #v[chunk b 0, chunk b 1, chunk b 2, chunk b 3] = b := by
  ext1 i hi
  obtain ⟨c, r, rfl⟩ : ∃ c r : Fin 4, i = 4 * c.val + r.val :=
    ⟨⟨i / 4, by omega⟩, ⟨i % 4, by omega⟩, by simp only; omega⟩
  have hword : #v[chunk b 0, chunk b 1, chunk b 2, chunk b 3][c] = chunk b c := by
    match c with
    | 0 | 1 | 2 | 3 => rfl
  rw [getElem_joinWords, hword, getElem_chunk]

/-- R208: round key `k` is words `4k` to `4k+3` of the schedule. -/
theorem getElem_aesRoundKey (key : Block) (k : Nat) (c r : Fin 4) :
    (aesRoundKey key k)[4 * c.val + r.val] = (aesWordAt key (4 * k + c.val))[r] := by
  rw [aesWordAt_quad]
  exact getElem_joinWords (aesQuad key k) c r

theorem aesRoundKey_zero (key : Block) : aesRoundKey key 0 = key := joinWords_chunks key

/-- Settles O57: the three kinds of key word are `aesWordAt_first`, `aesWordAt_special` and `aesWordAt_ordinary`; the
round keys are `getElem_aesRoundKey` and `aesRoundKey_zero`. -/
theorem keyWordsFollowTheRecurrence : Obligations.KeyWordsFollowTheRecurrence := by
  intro key
  refine ⟨fun k => aesWordAt_first key k.isLt, fun i h4 _ hmod SUB RCX hSUB hRCX => ?special,
    fun i h4 _ hmod => aesWordAt_ordinary key h4 hmod, fun k c r => getElem_aesRoundKey key k.val c r,
    aesRoundKey_zero key⟩
  case special =>
    subst hRCX hSUB
    exact aesWordAt_special key h4 hmod

end Sys2Proof.Machine
end

-- The proofs of the family 44_aes_key_expansion.md: the engine's key expansion
section
/-! The engine step (AES_KX, i): the key word by its kind, its trace record, and what stays (44_aes_key_expansion.md R209;
47_aes_commands.md R267, R268). -/

namespace Sys2Proof.Machine

theorem engineStep_aesKx {i : Fin 44} {a : Avce} (hb : a.busy = true) (hs : a.seq = .aesKx i) :
    engineStep a = stepAesKx i a := by
  rw [engineStep_busy hb, sequencedStep, hs]

/-! ### The key word -/

/-- R201. -/
theorem expandWord_first (key : Block) (w : Vector AesWord 44) {i : Fin 44} (h : i.val < 4) :
    expandWord key w i = chunk key ⟨i.val, h⟩ := by
  rw [expandWord, dif_pos h]

/-- R206. -/
theorem expandWord_special (key : Block) (w : Vector AesWord 44) {i : Fin 44} (h4 : 4 ≤ i.val) (hmod : i.val % 4 = 0) :
    expandWord key w i = xorWord (specialTerm i.val (prevWord w i)) w[i.val - 4] := by
  rw [expandWord, dif_neg (Nat.not_lt.mpr h4), if_pos hmod]

/-- R207. -/
theorem expandWord_ordinary (key : Block) (w : Vector AesWord 44) {i : Fin 44} (h4 : 4 ≤ i.val)
    (hmod : i.val % 4 ≠ 0) : expandWord key w i = xorWord (prevWord w i) w[i.val - 4] := by
  rw [expandWord, dif_neg (Nat.not_lt.mpr h4), if_neg hmod]

/-- R209: of the key words step (AES_KX, i) writes number `i` alone. -/
theorem getElem_stepAesKx_w (i : Fin 44) (a : Avce) (j : Fin 44) :
    (stepAesKx i a).w[j] = if j = i then expandWord a.akey a.w i else a.w[j] := by
  simp only [stepAesKx_w, Fin.getElem_fin, Vector.getElem_set, Fin.ext_iff, eq_comm]

theorem stepAesKx_w_same (i : Fin 44) (a : Avce) : (stepAesKx i a).w[i] = expandWord a.akey a.w i := by
  rw [getElem_stepAesKx_w, if_pos rfl]

theorem stepAesKx_w_of_ne {i j : Fin 44} (h : j ≠ i) (a : Avce) : (stepAesKx i a).w[j] = a.w[j] := by
  rw [getElem_stepAesKx_w, if_neg h]

/-! ### The trace record -/

theorem specialFlag_iff (i : Nat) : specialFlag i = true ↔ 4 ≤ i ∧ i % 4 = 0 := by
  simp [specialFlag]

/-- R268, the record of a special word. -/
theorem aesKeyRecord_special {i : Nat} (h4 : 4 ≤ i) (hmod : i % 4 = 0) (prev wi : AesWord) :
    aesKeyRecord i prev wi =
      [BitVec.ofNat 32 i, 1, wordBits (rotWord prev), wordBits (subWord (rotWord prev)), wordBits (specialTerm i prev),
        wordBits #v[rcon (i / 4 - 1), 0, 0, 0], wordBits wi, 0] :=
  if_pos ((specialFlag_iff i).mpr ⟨h4, hmod⟩)

/-- R268, the record of a word that is not special. -/
theorem aesKeyRecord_ordinary {i : Nat} (hmod : i % 4 ≠ 0) (prev wi : AesWord) :
    aesKeyRecord i prev wi = [BitVec.ofNat 32 i, 0, 0, 0, 0, 0, wordBits wi, 0] :=
  if_neg fun h => hmod ((specialFlag_iff i).mp h).2

/-- R268: record `i` as step (AES_KX, i) writes it lies at `16 + 8 * i`; step (AES_KX, 0) writes the header too. -/
theorem stepAesKx_traceWrites {i : Fin 44} (h0 : i.val ≠ 0) (a : Avce) :
    TraceWrites a (stepAesKx i a) (16 + 8 * i.val) (aesKeyRecord i.val (prevWord a.w i) (stepAesKx i a).w[i]) := by
  rw [stepAesKx_w_same]
  refine traceWrites_of_traceIf ((stepAesKx_trace i a).trans (if_neg h0)) ?fit
  rw [length_aesKeyRecord, Config.traceCap]
  omega

/-- R267: step (AES_KX, 0) writes the 16 header words and, behind them, record 0. -/
theorem stepAesKx_zero_traceWrites (a : Avce) :
    TraceWrites a (stepAesKx 0 a) 0
      (aesHeader a.cmd a.akey a.atext ++ [0, 0, 0, 0, 0, 0, wordBits (stepAesKx 0 a).w[(0 : Fin 44)], 0]) := by
  rw [stepAesKx_w_same]
  refine traceWrites_of_traceIf (stepAesKx_trace 0 a) ?fit
  simp [aesHeader, blockWords, Config.traceCap]

/-- Settles O29: the word by its kind is `expandWord_first`, `expandWord_special` or `expandWord_ordinary`; the other
words are `stepAesKx_w_of_ne`; the record is that of `stepAesKx_traceWrites`, or with the header that of
`stepAesKx_zero_traceWrites`. -/
theorem aesKeyExpansionStep : Obligations.AesKeyExpansionStep := by
  intro i a hb hs
  rw [engineStep_aesKx hb hs]
  refine ⟨fun h => ?first, fun h4 hmod ROT SUB RCX hROT hSUB hRCX => ?special, fun hmod h4 => ?ordinary,
    fun hmod => ?ordinaryRecord, fun h0 => ?header, fun j hj => stepAesKx_w_of_ne hj a, stepAesKx_seq i a, rfl⟩
  case first => exact (stepAesKx_w_same i a).trans (expandWord_first a.akey a.w h)
  case special =>
    subst hRCX hSUB hROT
    have hrecord := stepAesKx_traceWrites (i := i) (by omega) a
    rw [aesKeyRecord_special h4 hmod] at hrecord
    exact ⟨(stepAesKx_w_same i a).trans (expandWord_special a.akey a.w h4 hmod), hrecord⟩
  case ordinary => exact (stepAesKx_w_same i a).trans (expandWord_ordinary a.akey a.w h4 hmod)
  case ordinaryRecord =>
    have hrecord := stepAesKx_traceWrites (i := i) (by omega) a
    rwa [aesKeyRecord_ordinary hmod] at hrecord
  case header =>
    obtain rfl : i = 0 := Fin.ext h0
    exact stepAesKx_zero_traceWrites a

end Sys2Proof.Machine
end

-- The proofs of the family 45_aes_cipher.md: the product of two bytes in GF(2^8)
section
/-! `gmul` is the product of a commutative ring whose sum is XOR (40_primitives.md R107).  Every byte is built from 0
and 1 by XOR and by the doubling that a turn of the loop makes of the multiplicand, so the laws of the product are
inductions on one factor. -/

namespace Sys2Proof.Machine

/-! ### One turn of the loop -/

/-- A byte if a bit is set, else 0: what a turn of the loop of R107 adds. -/
def byteIf (c : Bool) (a : Byte) : Byte := if c = true then a else 0

theorem byteIf_bit_xor (c d : Bool) (a : Byte) : byteIf (c ^^ d) a = byteIf c a ^^^ byteIf d a := by
  cases c <;> cases d <;> simp [byteIf]

theorem byteIf_xor (c : Bool) (a b : Byte) : byteIf c (a ^^^ b) = byteIf c a ^^^ byteIf c b := by
  cases c <;> simp [byteIf]

theorem xor_byteIf (p : Byte) (c : Bool) (a : Byte) : p ^^^ byteIf c a = if c = true then p ^^^ a else p := by
  rw [byteIf]
  split
  · rfl
  · exact BitVec.xor_zero

/-- The multiplicand after one turn: twice `a` in GF(2^8). -/
def gdouble (a : Byte) : Byte := (a <<< 1) ^^^ byteIf (a.getLsbD 7) 0x1B

theorem gdouble_eq_ite (a : Byte) : gdouble a = if a.getLsbD 7 = true then (a <<< 1) ^^^ 0x1B else a <<< 1 :=
  xor_byteIf _ _ _

theorem gdouble_xor (a b : Byte) : gdouble (a ^^^ b) = gdouble a ^^^ gdouble b := by
  simp only [gdouble, BitVec.getLsbD_xor, BitVec.shiftLeft_xor_distrib, byteIf_bit_xor]
  ac_rfl

theorem gdouble_byteIf (c : Bool) (a : Byte) : gdouble (byteIf c a) = byteIf c (gdouble a) := by
  cases c with
  | false => exact (by decide : gdouble 0 = 0)
  | true => rfl

theorem gmulLoop_succ (n : Nat) (p a b : Byte) :
    gmulLoop (n + 1) p a b = gmulLoop n (p ^^^ byteIf (b.getLsbD 0) a) (gdouble a) (b >>> 1) := by
  rw [xor_byteIf, gdouble_eq_ite]
  rfl

/-! ### The loop, in each of its arguments -/

theorem gmulLoop_xor_right (n : Nat) (p q a b c : Byte) :
    gmulLoop n (p ^^^ q) a (b ^^^ c) = gmulLoop n p a b ^^^ gmulLoop n q a c := by
  induction n generalizing p q a b c with
  | zero => rfl
  | succ n ih =>
    simp only [gmulLoop_succ, ← ih, BitVec.getLsbD_xor, BitVec.ushiftRight_xor_distrib, byteIf_bit_xor]
    congr 1
    ac_rfl

theorem gmulLoop_xor_left (n : Nat) (p q a b c : Byte) :
    gmulLoop n (p ^^^ q) (a ^^^ b) c = gmulLoop n p a c ^^^ gmulLoop n q b c := by
  induction n generalizing p q a b c with
  | zero => rfl
  | succ n ih =>
    simp only [gmulLoop_succ, ← ih, gdouble_xor, byteIf_xor]
    congr 1
    ac_rfl

theorem gmulLoop_gdouble_left (n : Nat) (p a b : Byte) :
    gmulLoop n (gdouble p) (gdouble a) b = gdouble (gmulLoop n p a b) := by
  induction n generalizing p a b with
  | zero => rfl
  | succ n ih => rw [gmulLoop_succ, gmulLoop_succ, ← ih, gdouble_xor, gdouble_byteIf]

theorem gmulLoop_zero_right (n : Nat) (p a : Byte) : gmulLoop n p a 0#8 = p := by
  induction n generalizing a with
  | zero => rfl
  | succ n ih => simpa [gmulLoop_succ, byteIf] using ih (gdouble a)

/-! ### The product -/

theorem gmul_xor (a b c : Byte) : gmul a (b ^^^ c) = gmul a b ^^^ gmul a c := gmulLoop_xor_right 8 0 0 a b c

theorem xor_gmul (a b c : Byte) : gmul (a ^^^ b) c = gmul a c ^^^ gmul b c := gmulLoop_xor_left 8 0 0 a b c

theorem gdouble_gmul (a b : Byte) : gmul (gdouble a) b = gdouble (gmul a b) := gmulLoop_gdouble_left 8 0 a b

@[simp] theorem gmul_zero (a : Byte) : gmul a 0#8 = 0#8 := gmulLoop_zero_right 8 0 a

@[simp] theorem zero_gmul (b : Byte) : gmul 0#8 b = 0#8 := by
  have h := xor_gmul 0 0 b
  rwa [BitVec.xor_self, BitVec.xor_self] at h

@[simp] theorem gmul_one (a : Byte) : gmul a 1#8 = a := by
  calc gmul a 1 = gmulLoop 7 (0 ^^^ a) (gdouble a) 0 := gmulLoop_succ 7 0 a 1
    _ = 0 ^^^ a := gmulLoop_zero_right 7 (0 ^^^ a) (gdouble a)
    _ = a := BitVec.zero_xor

/-! ### Induction on a byte -/

theorem byte_eq_xor_bits :
    ∀ a : Byte, (List.range 8).foldr (fun i acc => byteIf (a.getLsbD i) (BitVec.twoPow 8 i) ^^^ acc) 0 = a := by
  decide

/-- What holds of 0 and of every single bit and is kept by XOR holds of every byte. -/
theorem byte_xor_induction {P : Byte → Prop} (zero : P 0#8) (bit : ∀ i < 8, P (BitVec.twoPow 8 i))
    (xor : ∀ a b, P a → P b → P (a ^^^ b)) (a : Byte) : P a := by
  have hbit : ∀ i ∈ List.range 8, P (byteIf (a.getLsbD i) (BitVec.twoPow 8 i)) := fun i hi => by
    cases a.getLsbD i with
    | false => exact zero
    | true => exact bit i (List.mem_range.mp hi)
  rw [← byte_eq_xor_bits a]
  exact List.foldrRecOn _ _ zero fun acc hacc i hi => xor _ acc (hbit i hi) hacc

/-- Below 256 doubling overflows nowhere. -/
theorem twoPow_eq_gdouble_iterate : ∀ i < 8, BitVec.twoPow 8 i = gdouble^[i] 1#8 := by decide

/-- What holds of 0 and 1 and is kept by doubling and XOR holds of every byte. -/
theorem byte_induction {P : Byte → Prop} (zero : P 0#8) (one : P 1#8) (double : ∀ a, P a → P (gdouble a))
    (xor : ∀ a b, P a → P b → P (a ^^^ b)) (a : Byte) : P a := by
  refine byte_xor_induction zero (fun i hi => ?bit) xor a
  rw [twoPow_eq_gdouble_iterate i hi]
  exact Function.Iterate.rec P one double i

/-! ### Commutativity and associativity -/

/-- On a single bit the eight turns are computed. -/
@[simp] theorem one_gmul (b : Byte) : gmul 1#8 b = b := by
  induction b using byte_xor_induction with
  | zero => exact gmul_zero 1
  | bit i hi => revert i; decide
  | xor a b ha hb => rw [gmul_xor, ha, hb]

theorem gmul_gdouble (a b : Byte) : gmul a (gdouble b) = gdouble (gmul a b) := by
  induction a using byte_induction with
  | zero => rw [zero_gmul, zero_gmul]; rfl
  | one => rw [one_gmul, one_gmul]
  | double a ha => rw [gdouble_gmul, gdouble_gmul, ha]
  | xor a a' ha ha' => rw [xor_gmul, xor_gmul, ha, ha', gdouble_xor]

theorem gmul_comm (a b : Byte) : gmul a b = gmul b a := by
  induction b using byte_induction with
  | zero => rw [gmul_zero, zero_gmul]
  | one => rw [gmul_one, one_gmul]
  | double b hb => rw [gmul_gdouble, gdouble_gmul, hb]
  | xor b b' hb hb' => rw [gmul_xor, xor_gmul, hb, hb']

theorem gmul_assoc (a b c : Byte) : gmul (gmul a b) c = gmul a (gmul b c) := by
  induction a using byte_induction with
  | zero => rw [zero_gmul, zero_gmul, zero_gmul]
  | one => rw [one_gmul, one_gmul]
  | double a ha => rw [gdouble_gmul, gdouble_gmul, gdouble_gmul, ha]
  | xor a a' ha ha' => rw [xor_gmul, xor_gmul, xor_gmul, ha, ha']

theorem gmul_two (a : Byte) : gmul a 2#8 = gdouble a := by
  have htwo : 2#8 = gdouble 1#8 := by decide
  rw [htwo, gmul_gdouble, gmul_one]

end Sys2Proof.Machine
end

-- The proofs of the family 45_aes_cipher.md: the columns of MixColumns and InvMixColumns
section
/-! MixColumns and InvMixColumns multiply every column of the state by a matrix (45_aes_cipher.md R224;
46_aes_inverse.md R243): the bytes of a column in the block form. -/

namespace Sys2Proof.Machine

/-- R220, R224, R243: byte `r` of column `c` is the product of row `r` of the matrix and column `c`. -/
theorem getElem_mixWith (row : Vector Byte 4) (s : Block) (c r : Fin 4) :
    (mixWith row s)[4 * c.val + r.val] = mixedByte row r.val (chunk s c) := by
  have hdiv : (4 * c.val + r.val) / 4 = c.val := by omega
  have hmod : (4 * c.val + r.val) % 4 = r.val := by omega
  simp only [mixWith, Vector.getElem_ofFn, hdiv, hmod, Fin.eta]

/-- R224. -/
theorem mixedByte_mixRow (a : AesWord) :
    mixedByte mixRow 0 a = gmul 2 a[0] ^^^ gmul 3 a[1] ^^^ a[2] ^^^ a[3] ∧
    mixedByte mixRow 1 a = a[0] ^^^ gmul 2 a[1] ^^^ gmul 3 a[2] ^^^ a[3] ∧
    mixedByte mixRow 2 a = a[0] ^^^ a[1] ^^^ gmul 2 a[2] ^^^ gmul 3 a[3] ∧
    mixedByte mixRow 3 a = gmul 3 a[0] ^^^ a[1] ^^^ a[2] ^^^ gmul 2 a[3] := by
  simp [mixedByte, circulantEntry, mixRow]

/-- R243. -/
theorem mixedByte_invMixRow (a : AesWord) :
    mixedByte invMixRow 0 a = gmul 14 a[0] ^^^ gmul 11 a[1] ^^^ gmul 13 a[2] ^^^ gmul 9 a[3] ∧
    mixedByte invMixRow 1 a = gmul 9 a[0] ^^^ gmul 14 a[1] ^^^ gmul 11 a[2] ^^^ gmul 13 a[3] ∧
    mixedByte invMixRow 2 a = gmul 13 a[0] ^^^ gmul 9 a[1] ^^^ gmul 14 a[2] ^^^ gmul 11 a[3] ∧
    mixedByte invMixRow 3 a = gmul 11 a[0] ^^^ gmul 13 a[1] ^^^ gmul 9 a[2] ^^^ gmul 14 a[3] :=
  ⟨rfl, rfl, rfl, rfl⟩

/-- Settles O59: the laws are those proved of the loop and by `byte_induction`; the columns are `getElem_mixWith` at the
rows of each matrix. -/
theorem galoisArithmeticOfMixColumns : Obligations.GaloisArithmeticOfMixColumns := by
  refine ⟨gmul_comm, gmul_xor, fun a => ⟨gmul_zero a, gmul_one a, (gmul_two a).trans (gdouble_eq_ite a)⟩,
    fun s c a0 a1 a2 a3 h0 h1 h2 h3 => ?columns⟩
  case columns =>
    subst h0 h1 h2 h3
    obtain ⟨m0, m1, m2, m3⟩ := mixedByte_mixRow (chunk s c)
    obtain ⟨n0, n1, n2, n3⟩ := mixedByte_invMixRow (chunk s c)
    have hmix := getElem_mixWith mixRow s c
    have hinv := getElem_mixWith invMixRow s c
    exact ⟨(hmix 0).trans m0, (hmix 1).trans m1, (hmix 2).trans m2, (hmix 3).trans m3,
      (hinv 0).trans n0, (hinv 1).trans n1, (hinv 2).trans n2, (hinv 3).trans n3⟩

end Sys2Proof.Machine
end

-- The proofs of the family 45_aes_cipher.md: the stages and their inverses
section
/-! Each inverse stage undoes its stage and the other way round: the row shifts by their indices, the substitutions by
their tables, and the two matrices because their products are the unit matrix (45_aes_cipher.md R222 to R224;
46_aes_inverse.md R240 to R243). -/

namespace Sys2Proof.Machine

/-! ### ShiftRows -/

@[simp] theorem getElem_shiftRows (s : Block) (i : Nat) (h : i < 16) :
    (shiftRows s)[i] = s[i % 4 + 4 * ((i / 4 + i % 4) % 4)] := by
  simp only [shiftRows, Vector.getElem_ofFn]

@[simp] theorem getElem_invShiftRows (s : Block) (i : Nat) (h : i < 16) :
    (invShiftRows s)[i] = s[i % 4 + 4 * ((i / 4 + 4 - i % 4) % 4)] := by
  simp only [invShiftRows, Vector.getElem_ofFn]

/-- R240: the shift of a row to the right undoes the shift to the left. -/
theorem invShiftRows_shiftRows (s : Block) : invShiftRows (shiftRows s) = s := by
  ext1 i hi
  rw [getElem_invShiftRows, getElem_shiftRows]
  exact getElem_congr_idx (by omega)

theorem shiftRows_invShiftRows (s : Block) : shiftRows (invShiftRows s) = s := by
  ext1 i hi
  rw [getElem_shiftRows, getElem_invShiftRows]
  exact getElem_congr_idx (by omega)

/-! ### SubBytes -/

/-- R241: the inverse S-box is the table of the inverse of the S-box. -/
theorem invSbox_sbox : ∀ x : Byte, invSbox (sbox x) = x := by decide

theorem sbox_invSbox : ∀ x : Byte, sbox (invSbox x) = x := by decide

theorem invSubBytes_subBytes (s : Block) : invSubBytes (subBytes s) = s := by
  ext1 i hi
  rw [getElem_invSubBytes, getElem_subBytes, invSbox_sbox]

theorem subBytes_invSubBytes (s : Block) : subBytes (invSubBytes s) = s := by
  ext1 i hi
  rw [getElem_subBytes, getElem_invSubBytes, sbox_invSbox]

/-! ### MixColumns -/

/-- Entry `(r, k)` of the product over GF(2^8) of two matrices, each given by its row 0. -/
def circulantProduct (row row' : Vector Byte 4) (r k : Fin 4) : Byte :=
  gmul (circulantEntry row r.val 0) (circulantEntry row' 0 k.val) ^^^
    gmul (circulantEntry row r.val 1) (circulantEntry row' 1 k.val) ^^^
    gmul (circulantEntry row r.val 2) (circulantEntry row' 2 k.val) ^^^
    gmul (circulantEntry row r.val 3) (circulantEntry row' 3 k.val)

/-- The matrix of `row` is a left inverse of that of `row'`: their product is the unit matrix. -/
def IsLeftInverseMatrix (row row' : Vector Byte 4) : Prop :=
  ∀ r k : Fin 4, circulantProduct row row' r k = if r = k then 1#8 else 0#8

theorem isLeftInverseMatrix_invMixRow_mixRow : IsLeftInverseMatrix invMixRow mixRow := by
  rw [IsLeftInverseMatrix]
  decide

theorem isLeftInverseMatrix_mixRow_invMixRow : IsLeftInverseMatrix mixRow invMixRow := by
  rw [IsLeftInverseMatrix]
  decide

/-- The column `a` by the matrix whose row 0 is `row`. -/
def mixedWord (row : Vector Byte 4) (a : AesWord) : AesWord :=
  #v[mixedByte row 0 a, mixedByte row 1 a, mixedByte row 2 a, mixedByte row 3 a]

theorem chunk_mixWith (row : Vector Byte 4) (s : Block) (c : Fin 4) :
    chunk (mixWith row s) c = mixedWord row (chunk s c) := by
  ext1 r hr
  calc (chunk (mixWith row s) c)[r] = (mixWith row s)[4 * c.val + r] := getElem_chunk _ c ⟨r, hr⟩
    _ = mixedByte row r (chunk s c) := getElem_mixWith row s c ⟨r, hr⟩
    _ = (mixedWord row (chunk s c))[r] := by
      match r with
      | 0 | 1 | 2 | 3 => rfl

/-- Two matrices one after the other act as their product, since `gmul` is associative and distributes over XOR. -/
theorem mixedByte_mixedWord (row row' : Vector Byte 4) (r : Fin 4) (a : AesWord) :
    mixedByte row r.val (mixedWord row' a) =
      gmul (circulantProduct row row' r 0) a[0] ^^^ gmul (circulantProduct row row' r 1) a[1] ^^^
        gmul (circulantProduct row row' r 2) a[2] ^^^ gmul (circulantProduct row row' r 3) a[3] := by
  calc mixedByte row r.val (mixedWord row' a)
      = gmul (circulantEntry row r.val 0) (mixedByte row' 0 a) ^^^
          gmul (circulantEntry row r.val 1) (mixedByte row' 1 a) ^^^
          gmul (circulantEntry row r.val 2) (mixedByte row' 2 a) ^^^
          gmul (circulantEntry row r.val 3) (mixedByte row' 3 a) := rfl
    _ = _ := by
      simp only [mixedByte, circulantProduct, gmul_xor, xor_gmul, gmul_assoc]
      ac_rfl

theorem mixedByte_mixedWord_cancel {row row' : Vector Byte 4} (h : IsLeftInverseMatrix row row') (r : Fin 4)
    (a : AesWord) : mixedByte row r.val (mixedWord row' a) = a[r] := by
  rw [mixedByte_mixedWord, h r 0, h r 1, h r 2, h r 3]
  match r with
  | 0 | 1 | 2 | 3 => simp

theorem mixWith_mixWith_cancel {row row' : Vector Byte 4} (h : IsLeftInverseMatrix row row') (s : Block) :
    mixWith row (mixWith row' s) = s := by
  ext1 i hi
  obtain ⟨c, r, rfl⟩ : ∃ c r : Fin 4, i = 4 * c.val + r.val :=
    ⟨⟨i / 4, by omega⟩, ⟨i % 4, by omega⟩, by simp only; omega⟩
  rw [getElem_mixWith, chunk_mixWith, mixedByte_mixedWord_cancel h, getElem_chunk]

/-- R243. -/
theorem invMixColumns_mixColumns (s : Block) : invMixColumns (mixColumns s) = s :=
  mixWith_mixWith_cancel isLeftInverseMatrix_invMixRow_mixRow s

theorem mixColumns_invMixColumns (s : Block) : mixColumns (invMixColumns s) = s :=
  mixWith_mixWith_cancel isLeftInverseMatrix_mixRow_invMixRow s

/-- Settles O58: one stage after the other. -/
theorem inverseStagesUndoTheirStages : Obligations.InverseStagesUndoTheirStages := fun s =>
  ⟨invShiftRows_shiftRows s, shiftRows_invShiftRows s, invSubBytes_subBytes s, subBytes_invSubBytes s,
    invMixColumns_mixColumns s, mixColumns_invMixColumns s⟩

end Sys2Proof.Machine
end

-- The proofs of the family 45_aes_cipher.md: decryption against encryption
section
/-! The rounds of one direction, with the round keys in reverse order, undo those of the other (46_aes_inverse.md R249).
A round is cut in two: the substitution of the bytes and the shift of the rows, then the columns and the round key.
Each half of the one direction undoes the same half of the other. -/

namespace Sys2Proof.Machine

/-! ### The halves of a round -/

/-- SubBytes and ShiftRows of an encryption round (R228), InvShiftRows and InvSubBytes of a decryption round (R245). -/
def aesSubShift (dec : Bool) (s : Block) : Block :=
  if dec then invSubBytes (invShiftRows s) else shiftRows (subBytes s)

/-- MixColumns and AddRoundKey of an encryption round (R228), AddRoundKey and InvMixColumns of a decryption round
(R245). -/
def aesMixAdd (dec : Bool) (s rk : Block) : Block :=
  if dec then invMixColumns (xorBlock s rk) else xorBlock (mixColumns s) rk

theorem aesSubShift_not (dec : Bool) (s : Block) : aesSubShift (!dec) (aesSubShift dec s) = s := by
  cases dec with
  | false => exact (congrArg invSubBytes (invShiftRows_shiftRows (subBytes s))).trans (invSubBytes_subBytes s)
  | true => exact (congrArg shiftRows (subBytes_invSubBytes (invShiftRows s))).trans (shiftRows_invShiftRows s)

theorem aesMixAdd_not (dec : Bool) (s rk : Block) : aesMixAdd (!dec) (aesMixAdd dec s rk) rk = s := by
  cases dec with
  | false => exact (congrArg invMixColumns (xorBlock_cancel (mixColumns s) rk)).trans (invMixColumns_mixColumns s)
  | true =>
    exact (congrArg (xorBlock · rk) (mixColumns_invMixColumns (xorBlock s rk))).trans (xorBlock_cancel s rk)

section
variable (dec : Bool) (T key : Block)

/-- R228, R245: rounds 1 to 9 have both halves. -/
theorem aesState_succ_of_lt {n : Nat} (hn : n + 1 < 10) :
    aesState dec T key (n + 1) =
      aesMixAdd dec (aesSubShift dec (aesState dec T key n)) (aesRoundKey key (roundKeyIndex dec (n + 1))) := by
  cases dec with
  | false => exact if_pos hn
  | true => exact if_pos hn

/-- R229, R246: round 10 leaves the columns alone. -/
theorem aesState_ten :
    aesState dec T key 10 =
      xorBlock (aesSubShift dec (aesState dec T key 9)) (aesRoundKey key (roundKeyIndex dec 10)) := by
  cases dec <;> rfl

end

/-! ### The rounds in reverse order -/

/-- R248: the other direction uses the round keys in reverse order. -/
theorem roundKeyIndex_not (dec : Bool) {n m : Nat} (h : n + m = 10) : roundKeyIndex (!dec) n = roundKeyIndex dec m := by
  cases dec with
  | false => simp only [roundKeyIndex, Bool.not_false, if_true, Bool.false_eq_true, if_false]; omega
  | true => simp only [roundKeyIndex, Bool.not_true, if_true, Bool.false_eq_true, if_false]; omega

section
variable (dec : Bool) (T key : Block)

/-- Started on the result of the one direction, the other has after `n` rounds the state of round `m + 1` between its
halves, `n + m = 9`: each round undoes the second half of the round it meets and the first half of the one before. -/
theorem aesState_not_of_result {n m : Nat} (hnm : n + m = 9) :
    aesState (!dec) (aesState dec T key 10) key n = aesSubShift dec (aesState dec T key m) := by
  induction n generalizing m with
  | zero =>
    obtain rfl : m = 9 := by omega
    have hkey : roundKeyIndex (!dec) 0 = roundKeyIndex dec 10 := roundKeyIndex_not dec rfl
    rw [aesState, hkey, aesState_ten, xorBlock_cancel]
  | succ n ih =>
    have hkey : roundKeyIndex (!dec) (n + 1) = roundKeyIndex dec (m + 1) := roundKeyIndex_not dec (by omega)
    rw [aesState_succ_of_lt _ _ _ (by omega), hkey, ih (show n + (m + 1) = 9 by omega), aesSubShift_not,
      aesState_succ_of_lt _ _ _ (by omega), aesMixAdd_not]

/-- The last round of the one direction undoes the first half of round 1 of the other, and its initial key. -/
theorem aesState_not_aesState : aesState (!dec) (aesState dec T key 10) key 10 = T := by
  have hkey : roundKeyIndex (!dec) 10 = roundKeyIndex dec 0 := roundKeyIndex_not dec rfl
  rw [aesState_ten, hkey, aesState_not_of_result dec T key (show 9 + 0 = 9 from rfl), aesSubShift_not, aesState,
    xorBlock_cancel]

end

/-- Settles O56: both ways are `aesState_not_aesState`. -/
theorem aesDecryptionInvertsEncryption : Obligations.AesDecryptionInvertsEncryption :=
  ⟨aesState_not_aesState false, aesState_not_aesState true⟩

end Sys2Proof.Machine
end

-- The proofs of the family 45_aes_cipher.md: the engine steps of the initial key and of the encryption rounds
section
/-! The engine steps AES_ARK0 and, for encryption, (AES_RND, n): the state, the round key by direction, the trace words
and the frame (45_aes_cipher.md R231, R232; 46_aes_inverse.md R250; 47_aes_commands.md R269, R270). -/

namespace Sys2Proof.Machine

/-! ### The step that SEQ selects -/

theorem engineStep_aesArk0 {a : Avce} (hb : a.busy = true) (hs : a.seq = .aesArk0) : engineStep a = stepAesArk0 a := by
  rw [engineStep_busy hb, sequencedStep, hs]

theorem engineStep_aesRnd {r : Fin 10} {a : Avce} (hb : a.busy = true) (hs : a.seq = .aesRnd r) :
    engineStep a = stepAesRnd r a := by
  rw [engineStep_busy hb, sequencedStep, hs]

/-! ### The round key -/

/-- R232: an encryption reads round key `n` at step `n`. -/
theorem roundKeyFor_enc {a : Avce} (hdec : a.cmdr.dec = false) (n : Fin 11) : roundKeyFor a n = roundKeyReg a.w n := by
  rw [roundKeyFor, hdec]
  rfl

/-- R251: a decryption reads round key `10 - n`. -/
theorem roundKeyFor_dec {a : Avce} (hdec : a.cmdr.dec = true) (n : Fin 11) :
    roundKeyFor a n = roundKeyReg a.w n.rev := by
  rw [roundKeyFor, hdec]
  rfl

/-- R231, R250: AES_ARK0 reads round key 0 to encrypt and 10 to decrypt. -/
theorem roundKeyFor_zero (a : Avce) :
    roundKeyFor a 0 = if a.cmdr.dec = true then joinWords #v[a.w[40], a.w[41], a.w[42], a.w[43]]
      else joinWords #v[a.w[0], a.w[1], a.w[2], a.w[3]] := by
  cases hdec : a.cmdr.dec with
  | false => exact roundKeyFor_enc hdec 0
  | true => exact roundKeyFor_dec hdec 0

/-! ### The round records -/

theorem length_aesEncRecordZero (inp rk out : Block) : (aesEncRecordZero inp rk out).length = 32 := rfl

theorem length_aesDecRecordZero (inp rk out : Block) : (aesDecRecordZero inp rk out).length = 32 := rfl

theorem length_aesEncRecord (n : Nat) (inp rk : Block) : (aesEncRecord n inp rk).length = 32 := by
  rw [aesEncRecord]
  split <;> rfl

theorem hasMixFlag_succ (n : Nat) : hasMixFlag (n + 1) = decide (n + 1 < 10) := by
  simp [hasMixFlag]

/-- R269: the record of an encryption round `n + 1`, whose four words of MixColumns are 0 in round 10. -/
theorem aesEncRecord_succ (n : Nat) (inp rk : Block) :
    aesEncRecord (n + 1) inp rk =
      [BitVec.ofNat 32 (n + 1), BitVec.ofNat 32 (n + 1), 1, if n + 1 < 10 then 1 else 0] ++ blockWords inp ++
        blockWords (subBytes inp) ++ blockWords (shiftRows (subBytes inp)) ++
        (if n + 1 < 10 then blockWords (mixColumns (shiftRows (subBytes inp))) else [0, 0, 0, 0]) ++ blockWords rk ++
        blockWords (aesEncRound (n + 1) inp rk) ++ blockWords (aesEncRound (n + 1) inp rk) := by
  simp [aesEncRecord, aesRecordHead, hasMixFlag_succ, hasSubFlag, flagWord, absent]

/-- R228, R229: MixColumns is skipped in round 10. -/
theorem aesEncRound_eq (n : Nat) (s rk : Block) :
    aesEncRound n s rk =
      xorBlock (if n < 10 then mixColumns (shiftRows (subBytes s)) else shiftRows (subBytes s)) rk := by
  rw [aesEncRound]
  split <;> rfl

/-! ### AES_ARK0 -/

/-- R269: record 0 of an encryption lies at 368. -/
theorem stepAesArk0_traceWrites_enc {a : Avce} (hdec : a.cmdr.dec = false) :
    TraceWrites a (stepAesArk0 a) 368 (aesEncRecordZero a.atext (roundKeyFor a 0) (stepAesArk0 a).st) := by
  refine traceWrites_of_traceIf ?trace ?fit
  case trace => rw [stepAesArk0_trace, hdec]; rfl
  case fit => rw [length_aesEncRecordZero, Config.traceCap]; omega

/-- R270: record 0 of a decryption lies there too. -/
theorem stepAesArk0_traceWrites_dec {a : Avce} (hdec : a.cmdr.dec = true) :
    TraceWrites a (stepAesArk0 a) 368 (aesDecRecordZero a.atext (roundKeyFor a 0) (stepAesArk0 a).st) := by
  refine traceWrites_of_traceIf ?trace ?fit
  case trace => rw [stepAesArk0_trace, hdec]; rfl
  case fit => rw [length_aesDecRecordZero, Config.traceCap]; omega

/-- Settles O30: the round key is `roundKeyFor_zero`, and the record that of the command's direction. -/
theorem aesInitialKeyStep : Obligations.AesInitialKeyStep := by
  intro a RK hb hs hRK
  rw [← roundKeyFor_zero] at hRK
  subst hRK
  rw [engineStep_aesArk0 hb hs]
  exact ⟨stepAesArk0_st a, stepAesArk0_seq a, stepAesArk0_traceWrites_enc, stepAesArk0_traceWrites_dec, rfl⟩

/-! ### (AES_RND, n) of an encryption -/

section
variable {a : Avce} (hdec : a.cmdr.dec = false) (r : Fin 10)
include hdec

/-- R232. -/
theorem stepAesRnd_st_enc : (stepAesRnd r a).st = aesEncRound (r.val + 1) a.st (roundKeyFor a r.succ) := by
  rw [stepAesRnd_st, hdec]
  rfl

/-- R269: record `r+1` lies at `368 + 32 * (r+1)`. -/
theorem stepAesRnd_traceWrites_enc :
    TraceWrites a (stepAesRnd r a) (368 + 32 * (r.val + 1)) (aesEncRecord (r.val + 1) a.st (roundKeyFor a r.succ)) := by
  refine traceWrites_of_traceIf ?trace ?fit
  case trace => rw [stepAesRnd_trace, hdec]; rfl
  case fit => rw [length_aesEncRecord, Config.traceCap]; omega

end

/-- Settles O31: the new state is `aesEncRound_eq`, and the record of `stepAesRnd_traceWrites_enc` is the listed one by
`aesEncRecord_succ`. -/
theorem aesEncryptionRoundStep : Obligations.AesEncryptionRoundStep := by
  intro r a A B RK hb hs hdec hA hB hRK
  have hkey : RK = roundKeyFor a r.succ := hRK.trans (roundKeyFor_enc hdec r.succ).symm
  have hrecord := stepAesRnd_traceWrites_enc hdec r
  rw [aesEncRecord_succ, ← stepAesRnd_st_enc hdec r] at hrecord
  subst hB hA hkey
  rw [engineStep_aesRnd hb hs]
  exact ⟨(stepAesRnd_st_enc hdec r).trans (aesEncRound_eq _ _ _), stepAesRnd_seq r a, hrecord, rfl⟩

end Sys2Proof.Machine
end

-- The proofs of the family 46_aes_inverse.md: the engine steps of the decryption rounds
section
/-! The engine step (AES_RND, n) of a decryption: the stages, the round key `10 - n`, which is added before
InvMixColumns, the trace words and the frame (46_aes_inverse.md R251; 47_aes_commands.md R270). -/

namespace Sys2Proof.Machine

/-! ### The round -/

/-- R245, R246: InvMixColumns, the last stage, is skipped in round 10. -/
theorem aesDecRound_eq (n : Nat) (s rk : Block) :
    aesDecRound n s rk =
      if n < 10 then invMixColumns (xorBlock (invSubBytes (invShiftRows s)) rk)
      else xorBlock (invSubBytes (invShiftRows s)) rk := rfl

/-- R251: step (AES_RND, r+1) of a decryption reads round key `10 - (r+1)`. -/
theorem roundKeyFor_succ_dec {a : Avce} (hdec : a.cmdr.dec = true) (r : Fin 10) :
    roundKeyFor a r.succ = joinWords #v[a.w[4 * (9 - r.val)]'(by omega), a.w[4 * (9 - r.val) + 1]'(by omega),
      a.w[4 * (9 - r.val) + 2]'(by omega), a.w[4 * (9 - r.val) + 3]'(by omega)] := by
  have hrev : r.succ.rev.val = 9 - r.val := by rw [Fin.val_rev, Fin.val_succ]; omega
  simp only [roundKeyFor_dec hdec, roundKeyReg, hrev]

/-! ### The round record -/

theorem length_aesDecRecord (n : Nat) (inp rk : Block) : (aesDecRecord n inp rk).length = 32 := by
  rw [aesDecRecord]
  split <;> rfl

/-- R270: the record of a decryption round `n + 1`, whose four words of InvMixColumns are 0 in round 10. -/
theorem aesDecRecord_succ (n : Nat) (inp rk : Block) :
    aesDecRecord (n + 1) inp rk =
      [BitVec.ofNat 32 (n + 1), BitVec.ofNat 32 (9 - n), 1, if n + 1 < 10 then 1 else 0] ++ blockWords inp ++
        blockWords (invShiftRows inp) ++ blockWords (invSubBytes (invShiftRows inp)) ++ blockWords rk ++
        blockWords (xorBlock (invSubBytes (invShiftRows inp)) rk) ++
        (if n + 1 < 10 then blockWords (invMixColumns (xorBlock (invSubBytes (invShiftRows inp)) rk))
          else [0, 0, 0, 0]) ++
        blockWords (aesDecRound (n + 1) inp rk) := by
  have hkey : 10 - (n + 1) = 9 - n := Nat.add_sub_add_right 9 1 n
  by_cases h : n + 1 < 10
  case pos =>
    have hround := (aesDecRound_eq (n + 1) inp rk).trans (if_pos h)
    simp [aesDecRecord, aesRecordHead, hasMixFlag_succ, hasSubFlag, flagWord, hkey, h, hround]
  case neg => simp [aesDecRecord, aesRecordHead, hasMixFlag_succ, hasSubFlag, flagWord, absent, hkey, h]

/-! ### (AES_RND, n) of a decryption -/

section
variable {a : Avce} (hdec : a.cmdr.dec = true) (r : Fin 10)
include hdec

/-- R251. -/
theorem stepAesRnd_st_dec : (stepAesRnd r a).st = aesDecRound (r.val + 1) a.st (roundKeyFor a r.succ) := by
  rw [stepAesRnd_st, hdec]
  rfl

/-- R270: record `r+1` lies at `368 + 32 * (r+1)`. -/
theorem stepAesRnd_traceWrites_dec :
    TraceWrites a (stepAesRnd r a) (368 + 32 * (r.val + 1)) (aesDecRecord (r.val + 1) a.st (roundKeyFor a r.succ)) := by
  refine traceWrites_of_traceIf ?trace ?fit
  case trace => rw [stepAesRnd_trace, hdec]; rfl
  case fit => rw [length_aesDecRecord, Config.traceCap]; omega

end

/-- Settles O32: the round key is `roundKeyFor_succ_dec`, the new state `aesDecRound_eq`, and the record of
`stepAesRnd_traceWrites_dec` is the listed one by `aesDecRecord_succ`. -/
theorem aesDecryptionRoundStep : Obligations.AesDecryptionRoundStep := by
  intro r a A B RK C hb hs hdec hA hB hRK hC
  have hkey : RK = roundKeyFor a r.succ := hRK.trans (roundKeyFor_succ_dec hdec r).symm
  have hrecord := stepAesRnd_traceWrites_dec hdec r
  rw [aesDecRecord_succ, ← stepAesRnd_st_dec hdec r] at hrecord
  subst hC hB hA hkey
  rw [engineStep_aesRnd hb hs]
  exact ⟨(stepAesRnd_st_dec hdec r).trans (aesDecRound_eq _ _ _), stepAesRnd_seq r a, hrecord, rfl⟩

end Sys2Proof.Machine
end

-- The proofs of the family 47_aes_commands.md: the engine step AES_OUT
section
/-! The engine step AES_OUT, the completion of an AES command: the published result, the header words of the output and
the frame (47_aes_commands.md R266; 20_memory.md R62). -/

namespace Sys2Proof.Machine

theorem engineStep_aesOut {a : Avce} (hb : a.busy = true) (hs : a.seq = .aesOut) : engineStep a = stepAesOut a := by
  rw [engineStep_busy hb, sequencedStep, hs]

/-- R62: word `c` of DOUT is bytes `4c..4c+3` of S, the lowest byte on top. -/
theorem getElem_stepAesOut_dout (a : Avce) (c : Fin 4) :
    (stepAesOut a).dout[c] = a.st[4 * c.val] ++ a.st[4 * c.val + 1] ++ a.st[4 * c.val + 2] ++ a.st[4 * c.val + 3] := by
  match c with
  | 0 | 1 | 2 | 3 => rfl

theorem getElem_stepAesOut_outBuf (a : Avce) (i : Fin 32) :
    (stepAesOut a).outBuf[i] = hexEncAt (blockBits a.st) i.val := by
  rw [stepAesOut_outBuf, getElem_putDigits, if_pos i.isLt]

/-- Settles O33: DOUT and OUT_BUF word by word, the header words of `stepAesOut_traceWrites`, which are those of DOUT, and
every other field is the step's own. -/
theorem aesFinalStepPublishes : Obligations.AesFinalStepPublishes := by
  intro a hb hs
  rw [engineStep_aesOut hb hs]
  exact ⟨getElem_stepAesOut_dout a, getElem_stepAesOut_outBuf a, stepAesOut_traceWrites a, rfl⟩

end Sys2Proof.Machine
end

-- The proofs of the family 47_aes_commands.md: the four commands and their results
section
/-! What the four AES commands leave (47_aes_commands.md R261 to R264, R266). -/

namespace Sys2Proof.Machine

/-! ### The registers of the DES engine -/

/-- `u` has the registers of the DES engine as `a` has them (R32, R33). -/
structure SameDesEngine (a u : Avce) : Prop where
  halves : u.c = a.c ∧ u.d = a.d
  pair : u.l = a.l ∧ u.r = a.r
  subkeys : u.k = a.k

/-- No step of an AES command touches them. -/
theorem engineStep_aes_sameDesEngine {a : Avce} (hp : PhaseInv a) (halg : a.cmdr.alg = 2) :
    SameDesEngine a (engineStep a) := by
  have hnot : a.cmdr.alg ≠ 1 := by rw [halg]; decide
  cases hb : a.busy with
  | false => rw [engineStep_idle hb]; exact ⟨⟨rfl, rfl⟩, ⟨rfl, rfl⟩, rfl⟩
  | true =>
    rw [engineStep_busy hb]
    cases hs : a.seq with
    | idle | aesKx | aesArk0 | aesRnd | aesOut => rw [sequencedStep, hs]; exact ⟨⟨rfl, rfl⟩, ⟨rfl, rfl⟩, rfl⟩
    | desPc1 => exact absurd ((phaseInv_desPc1 hs).mp hp) hnot
    | desKs => exact absurd ((phaseInv_desKs hs).mp hp).1 hnot
    | desIp => exact absurd ((phaseInv_desIp hs).mp hp).1 hnot
    | desRnd => exact absurd ((phaseInv_desRnd hs).mp hp).1 hnot
    | desFp => exact absurd ((phaseInv_desFp hs).mp hp).1 hnot

theorem SameDesEngine.trans {a u v : Avce} (h : SameDesEngine a u) (h' : SameDesEngine u v) : SameDesEngine a v where
  halves := ⟨h'.halves.1.trans h.halves.1, h'.halves.2.trans h.halves.2⟩
  pair := ⟨h'.pair.1.trans h.pair.1, h'.pair.2.trans h.pair.2⟩
  subkeys := h'.subkeys.trans h.subkeys

theorem engineSteps_aes_sameDesEngine {a : Avce} (hp : PhaseInv a) (halg : a.cmdr.alg = 2) (n : Nat) :
    SameDesEngine a (engineSteps n a) := by
  induction n generalizing a with
  | zero => exact ⟨⟨rfl, rfl⟩, ⟨rfl, rfl⟩, rfl⟩
  | succ n ih =>
    exact (engineStep_aes_sameDesEngine hp halg).trans
      (ih (phaseInv_engineStep hp) ((engineStep_sameInputs a).cmdr ▸ halg))

/-! ### What an AES command leaves -/

/-- What AES_OUT, the last step of the command `i`, finds in the engine when the command started from `a`: the block in S
and the key words in W (R34, R35). -/
structure AesEnd (i : Instr) (a b : Avce) : Prop where
  last : engineSteps 56 a = stepAesOut b
  cmdr : b.cmdr = ⟨i.fields.alg, i.fields.dec, i.fields.trc⟩
  state : b.st = aesState i.fields.dec a.atext a.akey 10
  words : ∀ j : Fin 44, b.w[j] = aesWordAt a.akey j.val

theorem Started.aesEnd {i : Instr} {a : Avce} (h : Started i a) (halg : i.fields.alg ≠ 1) : ∃ b, AesEnd i a b := by
  obtain ⟨b, hb⟩ := h.beforeEnd
  obtain ⟨hs, hlast⟩ := hb.aes halg
  obtain ⟨-, hw, hst⟩ := (phaseInv_aesOut hs).mp hb.inv.engine.phase
  obtain ⟨htext, hkey⟩ := hb.inputs.aesOperands
  rw [HasWords, hkey] at hw
  rw [htext, hkey, hb.cmdr] at hst
  exact ⟨b, hlast, hb.cmdr, hst, fun j => hw j j.isLt⟩

/-- A passing START of an AES command and its 56 engine steps, from any registers `a` (R261 to R264). -/
theorem aesFinished_latched {i : Instr} (halg : i.fields.alg ≠ 1) (a : Avce) :
    AesFinished (encode i) i.fields.dec i.fields.trc (aesOperand a.textBuf) (aesOperand a.keyBuf) a
      (engineSteps 56 (latched i a)) := by
  have hstarted := started_latched i a
  have halg' := fields_alg_eq_two halg
  have hsucceeds : Succeeded (engineSteps 56 (latched i a)) := stepsOf_aes halg ▸ hstarted.succeeds
  have hcmdr := hstarted.cmdr_after 56
  have hdes := engineSteps_aes_sameDesEngine hstarted.inv.engine.phase (hstarted.cmdr ▸ halg') 56
  have hinputs := engineSteps_sameInputs 56 (latched i a)
  obtain ⟨b, hlast, -, hst, hw⟩ := hstarted.aesEnd halg
  rw [halg'] at hcmdr
  rw [latched_aes halg] at *
  have hst' : b.st = aesState i.fields.dec (aesOperand a.textBuf) (aesOperand a.keyBuf) 10 := hst
  exact
    { dout := by rw [hlast, toList_stepAesOut_dout, hst']
      outBuf := fun j => by rw [hlast, getElem_stepAesOut_outBuf, hst']
      outLen := by rw [hlast, stepAesOut_outLen]
      status := hsucceeds.statusWord_eq
      errinfo := hsucceeds.errWord_eq
      sequencer := hsucceeds.idle
      command := ⟨hinputs.cmd, hcmdr, hinputs.aesOperands⟩
      state := by rw [hlast, stepAesOut_st, hst']
      words := by rw [hlast, stepAesOut_w]; exact hw
      inputs := ⟨hinputs.lengths.1, hinputs.lengths.2, hinputs.buffers⟩
      desRegisters := ⟨hinputs.desOperands.2, hinputs.desOperands.1, hdes.halves.1, hdes.halves.2, hdes.pair.1,
        hdes.pair.2, hdes.subkeys⟩ }

theorem Started.aes_traceLen {i : Instr} {a : Avce} (h : Started i a) (halg : i.fields.alg ≠ 1) :
    (engineSteps 56 a).traceLen = if i.fields.trc = true then 720 else 0 := by
  obtain ⟨b, hlast, hcmdr, -, -⟩ := h.aesEnd halg
  rw [hlast, stepAesOut_traceLen, hcmdr]

/-- An AES command on valid operands: its START, the 56 engine steps, and what they leave (R261 to R264). -/
theorem aesCommand_runs {i : Instr} (halg : i.fields.alg ≠ 1) {s : State} (hb : s.avce.busy = false)
    (hv : OperandsValid 32 s.avce) :
    ∃ t, exec i s = .next t ∧ (∀ k, k < 56 → statusWord (engineSteps k t.avce) = 1) ∧
      AesFinished (encode i) i.fields.dec i.fields.trc (aesOperand s.avce.textBuf) (aesOperand s.avce.keyBuf) s.avce
        (engineSteps 56 t.avce) ∧
      (engineSteps 56 t.avce).traceLen = (if i.fields.trc = true then 720 else 0) ∧
      (i.fields.trc = false → (engineSteps 56 t.avce).trace = s.avce.trace) := by
  have hstarted := started_latched i s.avce
  refine ⟨_, exec_of_valid hb ((needOf_aes halg).symm ▸ hv),
    fun k hk => hstarted.statusWord_before_end ((stepsOf_aes halg).symm ▸ hk), aesFinished_latched halg _,
    hstarted.aes_traceLen halg, fun hdirect => ?trace⟩
  case trace =>
    have hcmdr : (latched i s.avce).cmdr.trc = false := by rw [hstarted.cmdr]; exact hdirect
    refine (engineSteps_trace_direct 56 hcmdr).trans ?_
    rw [latched_aes halg, latchAes_trace, clearForStart_trace]

/-- Settles O17: `aesCommand_runs` of the direct encryption. -/
theorem aesEncEncrypts : Obligations.AesEncEncrypts := by
  intro s hb hv
  obtain ⟨t, hexec, hbusy, hfinished, htraceLen, htrace⟩ := aesCommand_runs (i := .aesEnc) (by decide) hb hv
  exact ⟨t, hexec, hbusy, hfinished, htraceLen, htrace rfl⟩

/-- Settles O18: `aesCommand_runs` of the direct decryption. -/
theorem aesDecDecrypts : Obligations.AesDecDecrypts := by
  intro s hb hv
  obtain ⟨t, hexec, hbusy, hfinished, htraceLen, htrace⟩ := aesCommand_runs (i := .aesDec) (by decide) hb hv
  exact ⟨t, hexec, hbusy, hfinished, htraceLen, htrace rfl⟩

/-- Settles O19: `aesCommand_runs` of the traced encryption. -/
theorem aesEncTracedEncrypts : Obligations.AesEncTracedEncrypts := by
  intro s hb hv
  obtain ⟨t, hexec, hbusy, hfinished, htraceLen, -⟩ := aesCommand_runs (i := .aesEncT) (by decide) hb hv
  exact ⟨t, hexec, hbusy, hfinished, htraceLen⟩

/-- Settles O20: `aesCommand_runs` of the traced decryption. -/
theorem aesDecTracedDecrypts : Obligations.AesDecTracedDecrypts := by
  intro s hb hv
  obtain ⟨t, hexec, hbusy, hfinished, htraceLen, -⟩ := aesCommand_runs (i := .aesDecT) (by decide) hb hv
  exact ⟨t, hexec, hbusy, hfinished, htraceLen⟩

end Sys2Proof.Machine
end

-- The proofs of the family 47_aes_commands.md: the 720 trace words
section
/-! The trace that AES.ENC.T and AES.DEC.T leave (47_aes_commands.md R267 to R271): each word gets its final value from
one of the 56 engine steps, and no later step writes it again. -/

namespace Sys2Proof.Machine

/-! ### The records within the whole trace -/

theorem length_aesFinalKeyRecord (key : Block) (i : Nat) : (aesFinalKeyRecord key i).length = 8 :=
  length_aesKeyRecord _ _ _

theorem length_aesFinalKeyRecords (key : Block) :
    ((List.range 44).flatMap fun i => aesFinalKeyRecord key i).length = 352 := by
  simp [List.length_flatMap, length_aesFinalKeyRecord]

section
variable (cmd : Word) (dec : Bool) (text key : Block)

theorem aesTraceWords_header {j : Nat} (hj : j < 16) :
    (aesTraceWords cmd dec text key).getD j 0 = (aesFinalHeader cmd dec text key).getD j 0 := by
  have hlen : (aesFinalHeader cmd dec text key).length = 16 := rfl
  rw [aesTraceWords, List.append_assoc, List.getD_append _ _ _ _ (hlen.symm ▸ hj)]

theorem aesTraceWords_keyRecord {i c : Nat} (hi : i < 44) (hc : c < 8) :
    (aesTraceWords cmd dec text key).getD (16 + (8 * i + c)) 0 = (aesFinalKeyRecord key i).getD c 0 := by
  have hhead : (aesFinalHeader cmd dec text key).length = 16 := rfl
  have hkeys := length_aesFinalKeyRecords key
  rw [aesTraceWords, List.append_assoc, List.getD_append_right _ _ _ _ (by omega), hhead, Nat.add_sub_cancel_left,
    List.getD_append _ _ _ _ (by omega)]
  exact getD_flatMap_range (length_aesFinalKeyRecord key) hi hc

theorem aesTraceWords_roundRecord {n c : Nat} (hn : n < 11) (hc : c < 32) :
    (aesTraceWords cmd dec text key).getD (368 + (32 * n + c)) 0 = (aesFinalRoundRecord dec text key n).getD c 0 := by
  have hhead : (aesFinalHeader cmd dec text key ++
      (List.range 44).flatMap fun i => aesFinalKeyRecord key i).length = 368 := by
    rw [List.length_append, length_aesFinalKeyRecords]
    rfl
  rw [aesTraceWords, List.getD_append_right _ _ _ _ (by omega), hhead, Nat.add_sub_cancel_left]
  exact getD_flatMap_range (length_aesFinalRoundRecord dec text key) hn hc

end

/-! ### The step that gives a word its final value -/

/-- The number of that step among the 56 of an AES command, counted from 0: (AES_KX, 0) for the header but for the words
of AES_OUT, and the step of its record for every other word; 56 for a word that no step writes (R265, R267 to R270). -/
def aesWriter (j : Nat) : Nat :=
  if j < 9 then 0
  else if j < 13 then 55
  else if j < 368 then (j - 16) / 8
  else if j < 720 then 44 + (j - 368) / 32
  else 56

theorem aesWriter_lt {j : Nat} (hj : j < 720) : aesWriter j < 56 := by
  unfold aesWriter
  split_ifs <;> omega

theorem Seq.aes_cases {q : Seq} (h : q.alg = 2) :
    (∃ i, q = .aesKx i) ∨ q = .aesArk0 ∨ (∃ r, q = .aesRnd r) ∨ q = .aesOut := by
  cases q with
  | aesArk0 | aesOut => simp
  | aesKx r | aesRnd r => simp
  | idle | desPc1 | desKs | desIp | desRnd | desFp => exact absurd h (by rw [Seq.alg]; decide)

/-- The run of an AES phase lies within the 720 words, and has no word that an earlier step has made final. -/
theorem not_covered_of_aesWriter {q : Seq} (hq : q.alg = 2) {j : Nat} (hj : aesWriter j + q.stepsLeft < 56 ∨ 720 ≤ j) :
    ¬(q.runStart ≤ j ∧ j < q.runEnd) := by
  unfold aesWriter at hj
  rcases Seq.aes_cases hq with ⟨i, rfl⟩ | rfl | ⟨r, rfl⟩ | rfl <;>
    simp only [Seq.stepsLeft, Seq.runStart, Seq.runEnd] at hj ⊢ <;> split_ifs at hj ⊢ <;> omega

theorem covered_of_aesWriter {q : Seq} (hq : q.alg = 2) {j : Nat} (hj : aesWriter j + q.stepsLeft = 56) :
    q.runStart ≤ j ∧ j < q.runEnd := by
  unfold aesWriter at hj
  rcases Seq.aes_cases hq with ⟨i, rfl⟩ | rfl | ⟨r, rfl⟩ | rfl <;>
    simp only [Seq.stepsLeft, Seq.runStart, Seq.runEnd] at hj ⊢ <;> split_ifs at hj ⊢ <;> omega

/-- The 720 words that the command and operands latched in `a` prescribe. -/
def latchedAesTrace (a : Avce) : List Word := aesTraceWords a.cmd a.cmdr.dec a.atext a.akey

/-- The header that (AES_KX, 0) writes is the finished one but for the words that AES_OUT will write (R267). -/
theorem aesHeader_word (cmd : Word) (dec : Bool) (text key : Block) {j : Nat} (hj : j < 9 ∨ 13 ≤ j ∧ j < 16) :
    (aesHeader cmd key text).getD j 0 = (aesFinalHeader cmd dec text key).getD j 0 := by
  rcases hj with h | ⟨h, h'⟩ <;> interval_cases j <;> rfl

/-- (AES_KX, 0) writes the header and, behind it, the first key-word record (R209). -/
theorem prescribedRun_word_aesKx_zero (a : Avce) {j : Nat} (hj : aesWriter j = 0) :
    (aesHeader a.cmd a.akey a.atext ++ aesFinalKeyRecord a.akey 0).getD j 0 = (latchedAesTrace a).getD j 0 := by
  have hlen : (aesHeader a.cmd a.akey a.atext).length = 16 := rfl
  have hplace : (j < 9 ∨ 13 ≤ j ∧ j < 16) ∨ (16 ≤ j ∧ j < 24) := by
    unfold aesWriter at hj
    split_ifs at hj <;> omega
  rw [latchedAesTrace]
  rcases hplace with hhead | ⟨hlo, hhi⟩
  · have hj16 : j < 16 := by omega
    rw [List.getD_append _ _ _ _ (hlen.symm ▸ hj16), aesTraceWords_header _ _ _ _ hj16]
    exact aesHeader_word _ _ _ _ hhead
  · obtain ⟨c, rfl⟩ : ∃ c, j = 16 + (8 * 0 + c) := ⟨j - 16, by omega⟩
    rw [aesTraceWords_keyRecord _ _ _ _ (by omega) (by omega), List.getD_append_right _ _ _ _ (by omega), hlen,
      Nat.add_sub_cancel_left, Nat.mul_zero, Nat.zero_add]

/-- The word that the step writes is the one that the whole trace has in its place. -/
theorem prescribedRun_word_aes (a : Avce) {q : Seq} (hq : q.alg = 2) {j : Nat} (hj : aesWriter j + q.stepsLeft = 56) :
    (prescribedRun a q).words.getD (j - q.runStart) 0 = (latchedAesTrace a).getD j 0 := by
  obtain ⟨hlo, hhi⟩ := covered_of_aesWriter hq hj
  rcases Seq.aes_cases hq with ⟨i, rfl⟩ | rfl | ⟨r, rfl⟩ | rfl <;> simp only [Seq.runStart, Seq.runEnd] at hlo hhi ⊢
  · by_cases h0 : i.val = 0
    · have hwriter : aesWriter j = 0 := by simp only [Seq.stepsLeft, h0] at hj; omega
      simp only [prescribedRun, h0]
      exact prescribedRun_word_aesKx_zero a hwriter
    · rw [if_neg h0] at hlo ⊢
      obtain ⟨c, rfl⟩ : ∃ c, j = 16 + (8 * i.val + c) := ⟨j - (16 + 8 * i.val), by omega⟩
      rw [latchedAesTrace, aesTraceWords_keyRecord _ _ _ _ i.isLt (by omega), ← Nat.add_assoc, Nat.add_sub_cancel_left,
        prescribedRun, if_neg h0]
  · obtain ⟨c, rfl⟩ : ∃ c, j = 368 + (32 * 0 + c) := ⟨j - 368, by omega⟩
    rw [latchedAesTrace, aesTraceWords_roundRecord _ _ _ _ (by omega) (by omega), Nat.add_sub_cancel_left, Nat.mul_zero,
      Nat.zero_add, prescribedRun]
  · obtain ⟨c, rfl⟩ : ∃ c, j = 368 + (32 * (r.val + 1) + c) := ⟨j - (400 + 32 * r.val), by omega⟩
    have hindex : 368 + (32 * (r.val + 1) + c) - (400 + 32 * r.val) = c := by omega
    rw [latchedAesTrace, aesTraceWords_roundRecord _ _ _ _ (by omega) (by omega), hindex, prescribedRun]
  · rw [latchedAesTrace, aesTraceWords_header _ _ _ _ (by omega)]
    interval_cases j <;> rfl

/-! ### The trace of a run -/

/-- A traced AES command whose trace memory was `m` at its START: every word that a step has made final is the one
prescribed, and beyond the 720 words the memory is as it was. -/
structure AesTraced (m : Memory) (a : Avce) : Prop where
  inv : CommandInv a
  cmdr : a.cmdr.alg = 2 ∧ a.cmdr.trc = true
  final : ∀ j, aesWriter j + a.seq.stepsLeft < 56 → a.trace.readWord j = (latchedAesTrace a).getD j 0
  beyond : ∀ j, 720 ≤ j → a.trace.readWord j = m.readWord j

theorem SameInputs.latchedAesTrace_eq {a u : Avce} (h : SameInputs a u) : latchedAesTrace u = latchedAesTrace a := by
  rw [latchedAesTrace, latchedAesTrace, h.cmd, h.cmdr, h.aesOperands.1, h.aesOperands.2]

theorem AesTraced.engineStep {m : Memory} {a : Avce} (h : AesTraced m a) : AesTraced m (engineStep a) := by
  cases hb : a.busy with
  | false => rwa [engineStep_idle hb]
  | true =>
    have hidle : a.seq ≠ .idle := h.inv.flags.busy_iff_sequenced.mp hb
    have hq : a.seq.alg = 2 := (h.inv.engine.phase.alg_eq hidle).trans h.cmdr.1
    have hin := engineStep_sameInputs a
    have hkept : ∀ j, aesWriter j + a.seq.stepsLeft < 56 ∨ 720 ≤ j →
        (Machine.engineStep a).trace.readWord j = a.trace.readWord j := fun j hj =>
      readWord_engineStep_of_not_covers h.inv h.cmdr.2
        ((prescribedRun_covers_iff a a.seq j).not.mpr (not_covered_of_aesWriter hq hj))
    refine ⟨h.inv.engineStep, hin.cmdr.symm ▸ h.cmdr, fun j hj => ?final, fun j hj => ?beyond⟩
    case final =>
      rw [hin.latchedAesTrace_eq]
      rw [stepsLeft_engineStep h.inv.flags] at hj
      by_cases hnow : aesWriter j + a.seq.stepsLeft = 56
      · have hcov := (prescribedRun_covers_iff a a.seq j).mpr (covered_of_aesWriter hq hnow)
        rw [readWord_engineStep_of_covers h.inv h.cmdr.2 hcov, prescribedRun_offset, prescribedRun_word_aes a hq hnow]
      · have hbefore : aesWriter j + a.seq.stepsLeft < 56 := by omega
        rw [hkept j (.inl hbefore), h.final j hbefore]
    case beyond => rw [hkept j (.inr hj), h.beyond j hj]

theorem aesTraced_latched {i : Instr} (halg : i.fields.alg ≠ 1) (htrc : i.fields.trc = true) (a : Avce) :
    AesTraced a.trace (latched i a) := by
  have hstarted := started_latched i a
  refine ⟨hstarted.inv, by rw [hstarted.cmdr]; exact ⟨fields_alg_eq_two halg, htrc⟩, fun j hj => ?final,
    fun j _ => ?beyond⟩
  case final =>
    rw [hstarted.steps, stepsOf_aes halg] at hj
    omega
  case beyond => rw [latched_aes halg, latchAes_trace, clearForStart_trace]

/-- The trace of a traced AES command on valid operands (R263, R264, R271). -/
theorem aesTrace_runs {i : Instr} (halg : i.fields.alg ≠ 1) (htrc : i.fields.trc = true) {s : State}
    (hb : s.avce.busy = false) (hv : OperandsValid 32 s.avce) :
    ∃ t, exec i s = .next t ∧ (engineSteps 56 t.avce).traceLen = 720 ∧
      (∀ j, j < 720 → (engineSteps 56 t.avce).trace.readWord j =
        (aesTraceWords (encode i) i.fields.dec (aesOperand s.avce.textBuf) (aesOperand s.avce.keyBuf)).getD j 0) ∧
      ∀ j, 720 ≤ j → (engineSteps 56 t.avce).trace.readWord j = s.avce.trace.readWord j := by
  have hstarted := started_latched i s.avce
  have hend : AesTraced s.avce.trace (engineSteps 56 (latched i s.avce)) :=
    engineSteps_keeps (P := AesTraced s.avce.trace) (fun _ => AesTraced.engineStep) 56 (aesTraced_latched halg htrc s.avce)
  have hwords : latchedAesTrace (engineSteps 56 (latched i s.avce)) =
      aesTraceWords (encode i) i.fields.dec (aesOperand s.avce.textBuf) (aesOperand s.avce.keyBuf) := by
    rw [(engineSteps_sameInputs 56 (latched i s.avce)).latchedAesTrace_eq, latchedAesTrace, latched_aes halg]
    rfl
  have hleft : (engineSteps 56 (latched i s.avce)).seq.stepsLeft = 0 := by
    rw [stepsLeft_engineSteps hstarted.inv.flags, hstarted.steps, stepsOf_aes halg]
  refine ⟨_, exec_of_valid hb ((needOf_aes halg).symm ▸ hv), (hstarted.aes_traceLen halg).trans (if_pos htrc),
    fun j hj => ?_, hend.beyond⟩
  rw [hend.final j (by rw [hleft]; exact aesWriter_lt hj), hwords]

/-- Settles O22: each of the 56 steps makes its words final, and none writes beyond the 720. -/
theorem aesTraceHoldsEveryRecord : Obligations.AesTraceHoldsEveryRecord := by
  rintro i s (rfl | rfl) hb hv
  · exact aesTrace_runs (by decide) rfl hb hv
  · exact aesTrace_runs (by decide) rfl hb hv

end Sys2Proof.Machine
end

-- The proofs of the family 60_exceptions.md: what a START reports
section
/-! The error that a write to CMD reports: the cause it finds first, the word that ERRINFO then holds, and the state that
the error leaves (60_exceptions.md R300 to R306). -/

namespace Sys2Proof.Machine

/-! ### The words of ERRINFO -/

/-- R24: CODE, SUB and INDEX in their places. -/
theorem errWord_toNat (e : ErrInfo) :
    (errWord e).toNat = e.code.toNat + e.sub.toNat * 16 + e.index.toNat * 256 := by
  simp only [errWord, BitVec.toNat_append]
  rw [← Nat.shiftLeft_add_eq_or_of_lt e.code.isLt, ← Nat.shiftLeft_add_eq_or_of_lt e.sub.isLt]
  simp only [Nat.shiftLeft_eq, BitVec.toNat_ofNat, Nat.zero_mod, Nat.zero_mul, Nat.zero_or]
  omega

/-- R301: the value of a bad text character, by its index. -/
theorem errWord_textCharacter (j : Fin 32) :
    errWord ⟨ErrClass.formatError.code, 2, BitVec.ofNat 8 j.val⟩ = 0x21#32 ||| (BitVec.ofNat 32 j.val <<< 8) := by
  decide +revert

/-- R301: the value of a bad key character, by its index. -/
theorem errWord_keyCharacter (j : Fin 32) :
    errWord ⟨ErrClass.formatError.code, 4, BitVec.ofNat 8 j.val⟩ = 0x41#32 ||| (BitVec.ofNat 32 j.val <<< 8) := by
  decide +revert

/-- R302: sub-code 1 of UnsupportedOperation. -/
theorem errWord_unknownAlgorithm (v : Word) (a : Avce) :
    errWord (startRejected v .unknownAlgorithm a).errinfo = 0x15 := by
  have herr : (startRejected v .unknownAlgorithm a).errinfo = ⟨ErrClass.unsupportedOperation.code, 1, 0⟩ := rfl
  rw [herr]
  decide

/-- R302: sub-code 2 of UnsupportedOperation. -/
theorem errWord_reservedBits (v : Word) (a : Avce) : errWord (startRejected v .reservedBits a).errinfo = 0x25 := by
  have herr : (startRejected v .reservedBits a).errinfo = ⟨ErrClass.unsupportedOperation.code, 2, 0⟩ := rfl
  rw [herr]
  decide

/-! ### The fault that the operand test finds -/

section
variable {need : Nat} {a : Avce}

theorem operandFault_of_text_length (h : check a.textBuf a.textLen need = .length) :
    operandFault need a = some (1, 0) := by
  rw [operandFault, h]

theorem operandFault_of_text_charset {j : Nat} (h : check a.textBuf a.textLen need = .charset j) :
    operandFault need a = some (2, BitVec.ofNat 8 j) := by
  rw [operandFault, h]

theorem operandFault_of_key_length (ht : check a.textBuf a.textLen need = .pass)
    (hk : check a.keyBuf a.keyLen need = .length) : operandFault need a = some (3, 0) := by
  rw [operandFault, ht, hk]

theorem operandFault_of_key_charset {j : Nat} (ht : check a.textBuf a.textLen need = .pass)
    (hk : check a.keyBuf a.keyLen need = .charset j) : operandFault need a = some (4, BitVec.ofNat 8 j) := by
  rw [operandFault, ht, hk]

theorem operandFault_of_pass (ht : check a.textBuf a.textLen need = .pass)
    (hk : check a.keyBuf a.keyLen need = .pass) : operandFault need a = none := by
  rw [operandFault, ht, hk]

end

/-- Only indices below 32 are ever examined (R301). -/
theorem lt_of_check_charset {buf : Vector Word Config.bufCap} {len : Word} {n j : Nat} (hn : n ≤ 32)
    (h : check buf len n = .charset j) : j < 32 := by
  obtain ⟨-, hj, -⟩ := (check_charset_iff buf len n hn j).mp h
  exact hj

/-! ### What a START with a fault, and one without, leaves in STATUS and ERRINFO -/

/-- The START of `i` from `a` ends with STATUS = 2 and ERRINFO = `w` (R306). -/
def Reports (i : Instr) (a : Avce) (w : Word) : Prop :=
  statusWord (startOf i a) = 2 ∧ errWord (startOf i a).errinfo = w

/-- STATUS is 2 after an error entry (R306). -/
theorem statusWord_raiseError {a : Avce} (hb : a.busy = false) (cls : ErrClass) (sub : BitVec 4) (index : BitVec 8)
    (v : Word) : statusWord (raiseError cls sub index (clearForStart v a)) = 2 := by
  rw [statusWord, raiseError_ok, raiseError_done, raiseError_busy, clearForStart_ok, clearForStart_busy, hb]
  rfl

section
variable {i : Instr} {a : Avce} (hb : a.busy = false)
include hb

theorem reports_of_fault {sub : BitVec 4} {index : BitVec 8} (h : operandFault (needOf i) a = some (sub, index)) :
    Reports i a (errWord ⟨ErrClass.formatError.code, sub, index⟩) := by
  rw [Reports, startOf_of_fault hb h]
  exact ⟨statusWord_raiseError hb _ _ _ _, rfl⟩

/-! The four FormatErrors of R301, by what the tests of the two operands find. -/

theorem reports_text_length (h : check a.textBuf a.textLen (needOf i) = .length) : Reports i a 0x11 :=
  reports_of_fault hb (operandFault_of_text_length h)

theorem reports_text_charset {j : Nat} (h : check a.textBuf a.textLen (needOf i) = .charset j) :
    Reports i a (0x21#32 ||| (BitVec.ofNat 32 j <<< 8)) := by
  rw [← errWord_textCharacter ⟨j, lt_of_check_charset (needOf_le i) h⟩]
  exact reports_of_fault hb (operandFault_of_text_charset h)

theorem reports_key_length (ht : check a.textBuf a.textLen (needOf i) = .pass)
    (hk : check a.keyBuf a.keyLen (needOf i) = .length) : Reports i a 0x31 :=
  reports_of_fault hb (operandFault_of_key_length ht hk)

theorem reports_key_charset {j : Nat} (ht : check a.textBuf a.textLen (needOf i) = .pass)
    (hk : check a.keyBuf a.keyLen (needOf i) = .charset j) :
    Reports i a (0x41#32 ||| (BitVec.ofNat 32 j <<< 8)) := by
  rw [← errWord_keyCharacter ⟨j, lt_of_check_charset (needOf_le i) hk⟩]
  exact reports_of_fault hb (operandFault_of_key_charset ht hk)

end

theorem startOf_of_valid {i : Instr} {a : Avce} (hb : a.busy = false) (hv : OperandsValid (needOf i) a) :
    startOf i a = latched i a := by
  have hexec := exec_of_valid (s := { State.reset with avce := a }) hb hv
  rw [exec_eq] at hexec
  injection hexec with hstate
  exact congrArg State.avce hstate

/-- A passing START leaves no error (R93). -/
theorem errinfo_startOf_of_pass {i : Instr} {a : Avce} (hb : a.busy = false)
    (hnone : operandFault (needOf i) a = none) : (startOf i a).errinfo = ⟨0, 0, 0⟩ := by
  rw [startOf_of_valid hb ((operandFault_none_iff _ (needOf_le i) a).mp hnone)]
  exact (started_latched i a).running.noError

/-- Settles O8: each clause's hypotheses say what the test of the text and that of the key find. -/
theorem formatErrorNamesTheFailedCheck : Obligations.FormatErrorNamesTheFailedCheck := by
  intro i s hb
  have hneed := needOf_le i
  refine ⟨_, exec_eq i s, fun hlen => ?textLength, fun j hlen hbad => ?textCharacter, fun hlen hhex hkey => ?keyLength,
    fun j hlen hhex hkey hbad => ?keyCharacter⟩
  case textLength => exact reports_text_length hb ((check_length_iff _ _ _).mpr hlen)
  case textCharacter => exact reports_text_charset hb ((check_charset_iff _ _ _ hneed _).mpr ⟨hlen, j.isLt, hbad⟩)
  case keyLength =>
    exact reports_key_length hb ((check_pass_iff _ _ _ hneed).mpr ⟨hlen, hhex⟩) ((check_length_iff _ _ _).mpr hkey)
  case keyCharacter =>
    exact reports_key_charset hb ((check_pass_iff _ _ _ hneed).mpr ⟨hlen, hhex⟩)
      ((check_charset_iff _ _ _ hneed _).mpr ⟨hkey, j.isLt, hbad⟩)

/-! ### The two tests of the decoder -/

theorem toNat_fieldsOf_alg (v : Word) : (fieldsOf v).alg.toNat = v.toNat % 16 := by
  simp [fieldsOf, BitVec.extractLsb'_toNat]

theorem toNat_fieldsOf_rsv (v : Word) : (fieldsOf v).rsv.toNat = v.toNat / 64 := by
  have hv := v.isLt
  simp only [fieldsOf, BitVec.extractLsb'_toNat, Nat.shiftRight_eq_div_pow]
  omega

theorem fieldsOf_alg_eq_iff (v : Word) (x : BitVec 4) : (fieldsOf v).alg = x ↔ v.toNat % 16 = x.toNat := by
  rw [← BitVec.toNat_inj, toNat_fieldsOf_alg]

theorem algRecognised_fieldsOf_iff (v : Word) :
    (fieldsOf v).algRecognised = true ↔ v.toNat % 16 = 1 ∨ v.toNat % 16 = 2 := by
  simp only [CommandFields.algRecognised, Bool.or_eq_true, beq_iff_eq, fieldsOf_alg_eq_iff]
  rfl

theorem rsvZero_fieldsOf_iff (v : Word) : (fieldsOf v).rsvZero = true ↔ v.toNat / 64 = 0 := by
  simp only [CommandFields.rsvZero, beq_iff_eq, ← BitVec.toNat_inj, toNat_fieldsOf_rsv]
  rfl

/-- R86, R302: sub-code 1 of UnsupportedOperation, whatever the reserved bits. -/
theorem decode_unknownAlgorithm {v : Word} (h : v.toNat % 16 ≠ 1 ∧ v.toNat % 16 ≠ 2) :
    decode v = .rejected .unknownAlgorithm := by
  have halg : ¬(fieldsOf v).algRecognised = true := by rw [algRecognised_fieldsOf_iff]; omega
  rw [decode, if_neg halg]

/-- R86, R302: sub-code 2, only with a recognised ALG. -/
theorem decode_reservedBits {v : Word} (halg : ¬(v.toNat % 16 ≠ 1 ∧ v.toNat % 16 ≠ 2)) (hrsv : v.toNat / 64 ≠ 0) :
    decode v = .rejected .reservedBits := by
  have halg' : (fieldsOf v).algRecognised = true := by rw [algRecognised_fieldsOf_iff]; omega
  rw [decode, if_pos halg', if_neg ((rsvZero_fieldsOf_iff v).not.mpr hrsv)]

/-- Every other word is a command, which needs the operand length of its ALG (R85, R88). -/
theorem decode_command {v : Word} (halg : ¬(v.toNat % 16 ≠ 1 ∧ v.toNat % 16 ≠ 2)) (hrsv : ¬v.toNat / 64 ≠ 0) :
    ∃ i, decode v = .command i ∧ (if v.toNat % 16 = 1 then 16 else 32) = needOf i := by
  have halg' : (fieldsOf v).algRecognised = true := by rw [algRecognised_fieldsOf_iff]; omega
  have hd : decode v = .command (commandOf ((fieldsOf v).alg == 2) (fieldsOf v).dec (fieldsOf v).trc) := by
    rw [decode, if_pos halg', if_pos ((rsvZero_fieldsOf_iff v).mpr (not_not.mp hrsv))]
  refine ⟨_, hd, ?_⟩
  simp only [needOf, fields_of_decode hd, fieldsOf_alg_eq_iff]
  rfl

/-! ### The write of a word to CMD -/

theorem hostWrite_rejected {s : State} (hb : s.avce.busy = false) {v : Word} {e : DecodeError}
    (hd : decode v = .rejected e) : hostWrite cmdRegNo v s = .next { s with avce := startRejected v e s.avce } := by
  rw [hostWrite_cmd hb regName_cmdRegNo, startWord, hd]

/-- Settles O9, along the order of R305: the decoder's two tests, then the tests of the text and of the key. -/
theorem startReportsTheFirstCause : Obligations.StartReportsTheFirstCause := by
  intro v s hb
  by_cases halg : v.toNat % 16 ≠ 1 ∧ v.toNat % 16 ≠ 2
  · rw [if_pos halg]
    exact ⟨_, hostWrite_rejected hb (decode_unknownAlgorithm halg), errWord_unknownAlgorithm v s.avce⟩
  by_cases hrsv : v.toNat / 64 ≠ 0
  · rw [if_neg halg, if_pos hrsv]
    exact ⟨_, hostWrite_rejected hb (decode_reservedBits halg hrsv), errWord_reservedBits v s.avce⟩
  obtain ⟨i, hd, hneed⟩ := decode_command halg hrsv
  rw [if_neg halg, if_neg hrsv, hneed, hostWrite_command regName_cmdRegNo hd]
  refine ⟨_, exec_eq i s, ?_⟩
  cases ht : check s.avce.textBuf s.avce.textLen (needOf i) with
  | length => exact (reports_text_length hb ht).2
  | charset j => exact (reports_text_charset hb ht).2
  | pass =>
    cases hk : check s.avce.keyBuf s.avce.keyLen (needOf i) with
    | length => exact (reports_key_length hb ht hk).2
    | charset j => exact (reports_key_charset hb ht hk).2
    | pass => exact congrArg errWord (errinfo_startOf_of_pass hb (operandFault_of_pass ht hk))

/-- A write to CMD that leaves an error code is the error entry over the cleared registers (R93, R306). -/
theorem hostWrite_cmd_error {v : Word} {s t : State} (hb : s.avce.busy = false)
    (h : hostWrite cmdRegNo v s = .next t) (hcode : t.avce.errinfo.code ≠ 0) :
    ∃ cls sub index, t = { s with avce := raiseError cls sub index (clearForStart v s.avce) } := by
  cases hd : decode v with
  | command i =>
    rw [hostWrite_command regName_cmdRegNo hd, exec_eq] at h
    injection h with h
    subst h
    rw [(decode_eq_command_iff v i).mp hd]
    rcases startOf_cases hb i with ⟨sub, index, he⟩ | ⟨-, he⟩ | ⟨-, he⟩
    · exact ⟨_, sub, index, by rw [he]⟩
    · exact absurd (congrArg (fun a => a.errinfo.code) he) hcode
    · exact absurd (congrArg (fun a => a.errinfo.code) he) hcode
  | rejected e =>
    rw [hostWrite_rejected hb hd] at h
    injection h with h
    subst h
    obtain ⟨sub, he⟩ := startRejected_eq v e s.avce
    exact ⟨_, sub, 0, by rw [he]⟩

/-- Settles O10: the state named is the error entry over the cleared registers, field by field. -/
theorem errorEntryLeavesExactlyThis : Obligations.ErrorEntryLeavesExactlyThis := by
  intro v s t hb h hcode
  obtain ⟨cls, sub, index, rfl⟩ := hostWrite_cmd_error hb h hcode
  exact ⟨statusWord_raiseError hb _ _ _ _, errWord_toNat _, rfl⟩

end Sys2Proof.Machine
end

-- The proofs of the family 60_exceptions.md: the legal values of ERRINFO
section
/-! Every START leaves ERRINFO at 0 or at one of the values of R301 and R302, and no other step but a reset writes it
(60_exceptions.md R303). -/

namespace Sys2Proof.Machine

theorem errinfoLegal_zero : ErrinfoLegal ⟨0, 0, 0⟩ := .inl rfl

/-- Step 4 of START finds a fault whose ERRINFO R301 lists. -/
theorem errinfoLegal_of_operandFault {need : Nat} (hn : need ≤ 32) {a : Avce} {sub : BitVec 4} {index : BitVec 8}
    (h : operandFault need a = some (sub, index)) : ErrinfoLegal ⟨ErrClass.formatError.code, sub, index⟩ := by
  have hshift : ∀ j : Fin 32, BitVec.ofNat 32 j.val <<< 8 = BitVec.ofNat 32 (j.val * 256) := by decide
  rcases operandFault_cases need hn a with ⟨-, hf⟩ | ⟨j, -, -, hf⟩ | ⟨-, -, hf⟩ | ⟨j, -, -, -, hf⟩ | ⟨-, hf⟩ <;>
    rw [hf] at h <;> cases h
  · exact .inr (.inl rfl)
  · exact .inr (.inr (.inr (.inr (.inr ⟨j, j.isLt, .inl ((errWord_textCharacter j).trans (by rw [hshift]))⟩))))
  · exact .inr (.inr (.inl rfl))
  · exact .inr (.inr (.inr (.inr (.inr ⟨j, j.isLt, .inr ((errWord_keyCharacter j).trans (by rw [hshift]))⟩))))

theorem errinfoLegal_startOf {a : Avce} (hb : a.busy = false) (i : Instr) : ErrinfoLegal (startOf i a).errinfo := by
  cases hf : operandFault (needOf i) a with
  | none =>
    rw [errinfo_startOf_of_pass hb hf]
    exact errinfoLegal_zero
  | some fault =>
    obtain ⟨sub, index⟩ := fault
    rw [startOf_of_fault hb hf]
    exact errinfoLegal_of_operandFault (needOf_le i) hf

theorem errinfoLegal_startRejected (v : Word) (e : DecodeError) (a : Avce) :
    ErrinfoLegal (startRejected v e a).errinfo := by
  cases e with
  | unknownAlgorithm => exact .inr (.inr (.inr (.inl (errWord_unknownAlgorithm v a))))
  | reservedBits => exact .inr (.inr (.inr (.inr (.inl (errWord_reservedBits v a)))))

theorem engineStep_errinfo (a : Avce) : (engineStep a).errinfo = a.errinfo := by
  obtain ⟨-, -, -, -, -, -, -, -, -, -, herr⟩ := engineStep_keeps_inputs a
  exact herr

/-- Settles O38: of all that changes the registers only a START and a reset write ERRINFO. -/
theorem everyStepKeepsErrinfoLegal : Obligations.EveryStepKeepsErrinfoLegal := by
  intro s t h hstep
  refine step_keeps (P := fun a => ErrinfoLegal a.errinfo) errinfoLegal_zero ?engine ?start ?reject ?write h hstep
  case engine =>
    intro a ha
    rwa [engineStep_errinfo]
  case start => exact fun i a hb _ => errinfoLegal_startOf hb i
  case reject => exact fun v e a _ _ _ => errinfoLegal_startRejected v e a
  case write =>
    intro v n a _ _ ha
    rwa [(writeReg_sameFlags v n a).errinfo]

end Sys2Proof.Machine
end

-- The proofs of the family 70_reset_and_hazards.md: RESET
section
/-! What the host reads after a RESET (70_reset_and_hazards.md R330 to R332). -/

namespace Sys2Proof.Machine

/-- R331: after reset every named register but ID reads 0. -/
theorem readReg_reset {r : RegName} (hr : r ≠ .id) : readReg Avce.reset r = 0 := by
  cases r with
  | id => exact absurd rfl hr
  | dout | textBuf | keyBuf | outBuf => simp [readReg, Avce.reset]
  | trace i => exact gatedTrace_of_traceLen_zero rfl i.val
  | cmd | status | errinfo | textLen | keyLen | outLen | traceLen | unmapped => rfl

/-- ID is register number 0, and only that (R51). -/
theorem hostRead_reset (n : RegNo) : hostRead Avce.reset n = if n.toNat = 0 then 0x41560007 else 0 := by
  have hid : regName n = .id ↔ n.toNat = 0 := regName_eq_iff n .id
  rw [hostRead]
  split
  · rename_i h0
    rw [hid.mpr h0]
    rfl
  · rename_i h0
    exact readReg_reset (hid.not.mpr h0)

/-- Settles O50: the step of a RESET event puts `Avce.reset` in place of the registers, which `hostRead_reset` reads; the
internal registers are those of that state. -/
theorem resetClearsEverything : Obligations.ResetClearsEverything := by
  intro s rest h
  refine ⟨_, step_of_reset h, rfl, rfl, hostRead_reset, rfl, rfl, rfl, rfl, rfl, rfl, fun _ => rfl, rfl, rfl, rfl, rfl, rfl,
    rfl, fun j => ?subkeys, fun j => ?blocks, fun j b => ?words⟩ <;> simp [Avce.reset]

end Sys2Proof.Machine
end
